-- ==== Sys2Proof/Word.lean ====
section
/-! DEFINITION. The word types of the part: bytes, radio IDs, site time, event counters. -/

namespace Sys2Proof

/-- A byte of any of the part's formats. -/
abbrev Byte := BitVec 8

/-- A radio ID, 24 bits (00_scope.md, 5.3). -/
abbrev Radio := BitVec 24

/-- A site-time value: a 32-bit count of 10 ms ticks (R181). -/
abbrev Time := BitVec 32

/-- An event counter, 16 bits (R192). -/
abbrev Count16 := BitVec 16

end Sys2Proof
end

