-- ==== Sys2Proof/Syntax.lean ====
section
/-! DEFINITION. The commands: one constructor of `Instr` per row of spec/opcode_table.json. The table gives the rows no
fields; the operands are what the event that the row names brings with it. -/

namespace Sys2Proof

/-- A part of a maintenance-port frame (R184). The reply is formed when the last argument byte arrives (or the command
byte, if there is no argument) and the effect comes at the rise of MNT_SEL, so other events may fall between. -/
inductive FramePart where
  /-- MNT_SEL falls and the command byte arrives. -/
  | command
  /-- The last of the command's argument bytes arrives. -/
  | arguments
  /-- MNT_SEL rises; `clocked` bytes were clocked after the command byte. -/
  | rise (clocked : Nat)
  /-- The whole frame, no other event of the part falling inside it; `clocked` bytes after the command byte. -/
  | whole (clocked : Nat)
  deriving DecidableEq, Repr

/-- The byte after which the acknowledge is missing (R174). -/
inductive AckPoint where
  /-- after 0xAE -/
  | deviceWrite
  /-- after the word address 0x00 -/
  | wordAddress
  /-- after 0xAF -/
  | deviceRead
  deriving DecidableEq, Repr

/-- How far the read sequence of R173 had come when the load deadline was reached. -/
structure BusProgress where
  /-- clock pulses of the bus check, up to nine -/
  pulses : Nat
  /-- operations done of the start and address phase, up to five -/
  addressed : Nat
  /-- bytes clocked in, in order -/
  bytes : List Byte
  deriving DecidableEq, Repr

/-- The two stamps that carry an old mark (R183). -/
inductive StampName where
  | lastSent
  | quietSince
  deriving DecidableEq, Repr

/-- The commands of the part, in the order of the table. -/
inductive Instr where
  /-- RESET_N is asserted (R171). -/
  | hardReset
  /-- RESET_N is released (R171). -/
  | resetRelease
  /-- The 96th byte has been read and the stop condition sent (R175). -/
  | readComplete (pulses : Nat) (image : List Byte)
  /-- No acknowledge is seen (R174). -/
  | missingAcknowledge (pulses : Nat) (point : AckPoint)
  /-- The data line is low after the ninth clock pulse (R174). -/
  | stuckDataLine
  /-- Site time reaches the load deadline; `clockHeld`: the memory holds CFG_SCL low (R173, R174). -/
  | loadDeadline (progress : BusProgress) (clockHeld : Bool)
  /-- A 10 ms tick (R181). -/
  | tick
  /-- 25,500 ticks have elapsed from the stamp (R183). -/
  | oldMark (stamp : StampName)
  /-- A pulse on RPT_FS (R1). -/
  | reportFrameStart
  /-- The 65th byte of a report frame arrives; the frame's bytes (R1). -/
  | reportFrame (frame : List Byte)
  /-- The lost deadline of the entry at roster index `i` (R46). -/
  | lostDeadline (i : Fin 64)
  /-- The call-active deadline of the entry at `i` (R40). -/
  | callActiveDeadline (i : Fin 64)
  /-- The emergency clear deadline of the entry at `i` (R41). -/
  | emergencyClear (i : Fin 64)
  /-- The end of the guard period of the entry at `i` (R47). -/
  | guardPeriodEnd (i : Fin 64)
  /-- The reservation deadline of the entry at `i` (R51). -/
  | reservationDeadline (i : Fin 64)
  /-- The dwell deadline of the entry at `i` (R103). -/
  | dwellExpiry (i : Fin 64)
  /-- The exclusion deadline of the entry at `i` (R109). -/
  | exclusionDeadline (i : Fin 64)
  /-- The answer deadline of the departure record at position `p` (R115, R116). -/
  | answerDeadline (p : Fin 4)
  /-- The leave deadline of the departure record at position `p` (R122). -/
  | leaveDeadline (p : Fin 4)
  /-- The age deadline of the stray at index `j` (R64). -/
  | strayAgeDeadline (j : Fin 32)
  /-- The hearing deadline (R66, R67). -/
  | hearingPeriodExpiry
  /-- The silence deadline of neighbour record `n` (R78). -/
  | silenceDeadline (n : Fin 8)
  /-- The expiry of the hearing entry at index `j` (R84). -/
  | hearingExpiry (j : Fin 128)
  /-- The channel has been quiet for the idle gap in DEFER (R160). -/
  | idleGapDeadline
  /-- The backoff count has reached 0 (R161). -/
  | backoffEnd
  /-- The spacing deadline (R162). -/
  | spacingEnd
  /-- The window deadline of the load monitor (R166). -/
  | windowEnd
  /-- LNK_CD rises (R150). -/
  | carrierOnset
  /-- LNK_CD falls; the bytes delivered while it was high (R150). -/
  | carrierFall (bytes : List Byte)
  /-- The head frame of the receive queue is dispatched (R154). -/
  | dispatch
  /-- A report on LNK_SENT (R162). -/
  | sentReport
  /-- A strobe on STR_TAKEN (R141). -/
  | takenStrobe
  /-- STATUS, 0x01 (R186). -/
  | status (part : FramePart)
  /-- PEEK ATTENTION, 0x02 (R187). -/
  | peekAttention (part : FramePart)
  /-- TAKE ATTENTION, 0x03 (R188). -/
  | takeAttention (part : FramePart)
  /-- SELECT TABLE, 0x10 (R189). -/
  | selectTable (table index : Byte) (part : FramePart)
  /-- READ ENTRY, 0x11 (R190). -/
  | readEntry (part : FramePart)
  /-- The fetch in flight completes (R190). -/
  | fetchComplete
  /-- READ COUNTERS, 0x12 (R192). -/
  | readCounters (clear : Byte) (part : FramePart)
  /-- SET HOLD, 0x20 (R193). -/
  | setHold (mode : Byte) (part : FramePart)
  /-- PIN, 0x21 (R194). -/
  | pin (radio : Radio) (part : FramePart)
  /-- UNPIN, 0x22 (R194). -/
  | unpin (radio : Radio) (part : FramePart)
  /-- LISTEN ONLY, 0x23 (R195). -/
  | listenOnly (setting : Byte) (part : FramePart)
  /-- FLUSH, 0x30 (R196). -/
  | flush (part : FramePart)
  /-- The flush completes (R197). -/
  | flushComplete
  /-- RELOAD, 0x31 (R180). -/
  | reload (part : FramePart)
  /-- A command byte that is not in the command table (R184). -/
  | unknownCommand (code : Byte) (part : FramePart)
  deriving DecidableEq, Repr

end Sys2Proof
end

