-- ==== Sys2Proof/Decode.lean ====
section
/-! DEFINITION. The command that a word of spec/opcode_table.json spells, and the command that a frame on the maintenance port
is. No row of the table gives bits ("fields" is empty in every row and none has "fixed" bits), so no word of the table
spells a command (log entry 13). -/

namespace Sys2Proof

/-- The command that the low `nbits` bits of `w` spell by the table's bits: none, for the table gives no row any bits. -/
def decodeTableWord (_nbits _w : Nat) : Option Instr := none

/-- The command that a whole frame on the maintenance port is, from the bytes clocked in on MNT_DI (the table of R184): the
command byte names it, its argument bytes follow, and bytes after them are not read. A frame without a complete byte is
none. An argument byte that a frame ends before stands as 0 here, and the frame, not complete, never uses it. -/
def frameCommand : List Byte → Option Instr
  | [] => none
  | code :: rest =>
    let argument (k : Nat) : Byte := rest.getD k 0
    let radio : Radio := argument 0 ++ argument 1 ++ argument 2
    let part : FramePart := .whole rest.length
    some
      (match code.toNat with
      | 0x01 => .status part
      | 0x02 => .peekAttention part
      | 0x03 => .takeAttention part
      | 0x10 => .selectTable (argument 0) (argument 1) part
      | 0x11 => .readEntry part
      | 0x12 => .readCounters (argument 0) part
      | 0x20 => .setHold (argument 0) part
      | 0x21 => .pin radio part
      | 0x22 => .unpin radio part
      | 0x23 => .listenOnly (argument 0) part
      | 0x30 => .flush part
      | 0x31 => .reload part
      | _ => .unknownCommand code part)

end Sys2Proof
end

