-- ==== Sys2Proof/Config.lean ====
section
/-! DEFINITION. What is fixed for the part: its sizes and constants, the names of the twenty-six parameters of the
configuration image, and the free bytes of the model. -/

namespace Sys2Proof.Config

/-- Occupancy below which an ordinary creation may take place (R34). -/
def ordinaryLimit : Nat := 60

/-- Occupancy below which an emergency creation may take place: all positions of the roster (R34). -/
def emergencyLimit : Nat := 64

/-- Frames that the transmit queue, and the receive queue, may hold (R153, R155). -/
def linkQueueSize : Nat := 16

/-- The longest link frame in bytes (00_scope.md, 7.2; R150). -/
def longestFrame : Nat := 31

/-- Orders that the steer queue may hold (R137). -/
def steerQueueSize : Nat := 8

/-- Radios that the pin list may hold (R58). -/
def pinListSize : Nat := 8

/-- Pairs that one HEARD notice may carry (R68). -/
def heardPairs : Nat := 6

/-- Elapsed ticks at which a last-sent or quiet-since stamp is marked old (R183). -/
def oldAge : Nat := 25500

/-- Ticks of one load-monitor window (R165, R166). -/
def windowTicks : Nat := 100

/-- Ticks from the beginning of a load to its deadline (R172). -/
def loadTicks : Nat := 100

/-- Bytes of a configuration image (00_scope.md, 7.3). -/
def imageSize : Nat := 96

/-- Bytes of a report frame (00_scope.md, 7.1). -/
def reportSize : Nat := 65

/-- Bytes of a table record (R191). -/
def recordSize : Nat := 40

/-- The parameters of the configuration image (00_scope.md, 7.3; R177). -/
inductive Param where
  | filterShift | fadeLimit | hysteresis | rescueFloor | reportFloor | dwell | askTimeout | askAttempts | declineHold
  | arrivalTimeout | leaveMargin | lostTime | silenceTime | strayAge | hearingMaxAge | hearingPeriod | presencePeriod
  | idleGap | txSpacing | initialWindow | loadThreshold | steerRepeats | pingPongGuard | emergencyClear | callHang | awayLoss
  deriving DecidableEq, Repr

/-- The value of a record byte for which the spec states no value, by the number of the use: a FREE VALUE, nothing
constrains it (log entry 3). -/
opaque freeByte : Nat → Byte

end Sys2Proof.Config
end

