-- ==== Sys2Proof/Machine/State.lean ====
section
/-! DEFINITION. The state of the part, block by block as 00_scope.md section 2 names them, its value after hard reset, and
the reasons a step can stop. -/

namespace Sys2Proof.Machine

/-! ### Report Intake -/

/-- A LOCKED path lock (R6): the locked radio and the NONE count. A FREE lock is `none`. -/
structure PathLock where
  radio : Radio
  nones : Nat
  deriving DecidableEq, Repr

/-- Report Intake (chapter 1). -/
structure Intake where
  /-- a pulse on RPT_FS has been seen and the frame's 65th byte has not (R1) -/
  collecting : Bool
  /-- none, or the last accepted frame number (R2) -/
  expectation : Option Byte
  /-- one lock per report position (R6) -/
  locks : Vector (Option PathLock) 8
  deriving DecidableEq, Repr

/-! ### Roster Engine -/

/-- The four entry states (R33). -/
inductive EntryState where
  | homed
  | asking
  | leaving
  | expected
  deriving DecidableEq, Repr

/-- Origin site, arrival stamp, and whether a guard period runs (R28, R32). -/
structure Arrival where
  origin : Byte
  stamp : Time
  guardRuns : Bool
  deriving DecidableEq, Repr

/-- The last hearing through a neighbour's channel (R44). -/
structure Sighting where
  neighbour : Fin 8
  stamp : Time
  deriving DecidableEq, Repr

/-- The neighbour kept from being eligible, and until when (R108). -/
structure Exclusion where
  neighbour : Fin 8
  deadline : Time
  deriving DecidableEq, Repr

/-- What an EXPECTED entry is held for (R49). -/
structure Reservation where
  fromSite : Byte
  sequence : Byte
  deadline : Time
  deriving DecidableEq, Repr

/-- A roster entry (R32). -/
structure RosterEntry where
  radio : Radio
  state : EntryState
  /-- filtered level in sixteenths of a level step -/
  f : Nat
  lastHeard : Time
  lostDeadline : Option Time
  /-- registration count, `none` for unknown -/
  count : Option (BitVec 4)
  arrival : Option Arrival
  /-- the emergency clear deadline; the emergency flag is set while it is present (R41) -/
  emergency : Option Time
  callActive : Option Time
  away : Option Sighting
  dwell : Option Time
  askReady : Bool
  exclusion : Option Exclusion
  heardWhileLeaving : Bool
  reservation : Option Reservation
  deriving DecidableEq, Repr

/-- Roster Engine: the roster and the pin list (chapter 3). -/
structure RosterEngine where
  entries : Vector (Option RosterEntry) 64
  pins : List Radio
  deriving DecidableEq, Repr

/-! ### Stray Tracker -/

/-- A stray entry (R60). -/
structure StrayEntry where
  radio : Radio
  f : Nat
  lastHeard : Time
  ageDeadline : Time
  neighbour : Fin 8
  reported : Bool
  deriving DecidableEq, Repr

/-- Stray Tracker (chapter 4). -/
structure StrayTracker where
  entries : Vector (Option StrayEntry) 32
  cursor : Fin 32
  hearingDeadline : Option Time
  deriving DecidableEq, Repr

/-! ### Neighbours and Hearing Table -/

/-- The three states of a neighbour record (R76). -/
inductive NeighbourState where
  | unknown
  | live
  | silent
  deriving DecidableEq, Repr

/-- A neighbour record (R75). Site 0 is an unused record. -/
structure NeighbourRecord where
  site : Byte
  channel : Byte
  bias : Int
  accept : Bool
  state : NeighbourState
  lastFrame : Option Time
  silence : Option Time
  deriving DecidableEq, Repr

/-- A hearing entry (R80). -/
structure HearingEntry where
  neighbour : Fin 8
  radio : Radio
  level : Nat
  received : Time
  expiry : Time
  deriving DecidableEq, Repr

/-- Hearing Table block (chapter 5). -/
structure Hearing where
  neighbours : Vector NeighbourRecord 8
  table : Vector (Option HearingEntry) 128
  deriving DecidableEq, Repr

/-! ### Negotiator -/

/-- The phase of a departure record (R111). -/
inductive Phase where
  | asking
  | leaving
  deriving DecidableEq, Repr

/-- A departure record (R111). -/
structure Departure where
  radio : Radio
  rosterIndex : Fin 64
  target : Fin 8
  sequence : Byte
  phase : Phase
  attempt : Nat
  /-- the answer deadline while ASKING, the leave deadline while LEAVING -/
  deadline : Time
  ownLevel : Nat
  neighbourLevel : Nat
  emergency : Bool
  rescue : Bool
  deriving DecidableEq, Repr

/-- The outcomes of the history pair (R134). -/
inductive Departed where
  | confirmed
  | elsewhere
  | unconfirmed
  | lost
  | superseded
  deriving DecidableEq, Repr

/-- A record of the history pair (R133). -/
structure History where
  radio : Radio
  toSite : Byte
  stamp : Time
  outcome : Departed
  deriving DecidableEq, Repr

/-- Negotiator (chapter 7). -/
structure Negotiator where
  departures : Vector (Option Departure) 4
  sequence : Byte
  last : Option History
  previous : Option History
  deriving DecidableEq, Repr

/-! ### Steer Queue -/

/-- The two kinds of order (R137). -/
inductive OrderKind where
  | move
  | refuse
  deriving DecidableEq, Repr

/-- A steering order (R137). -/
structure SteerOrder where
  kind : OrderKind
  radio : Radio
  channel : Byte
  site : Byte
  repeats : Nat
  deriving DecidableEq, Repr

/-- Steer Queue and its port (chapter 8). -/
structure SteerQueue where
  /-- head first -/
  orders : List SteerOrder
  /-- the radios of the orders held, in order of admission, oldest first (R137) -/
  admission : List Radio
  strRdy : Bool
  /-- the six bytes presented, empty while nothing is (R140) -/
  strDat : List Byte
  /-- the model's own count of presentations made (R140) -/
  presentations : Nat
  deriving DecidableEq, Repr

/-! ### Link Controller -/

/-- The kinds of link frame (00_scope.md, 7.2). -/
inductive FrameKind where
  | heard
  | ask
  | take
  | decline
  | homed
  deriving DecidableEq, Repr

/-- A link frame (00_scope.md, 7.2). -/
structure LinkFrame where
  dest : Byte
  source : Byte
  kind : FrameKind
  body : List Byte
  crc : BitVec 16
  deriving DecidableEq, Repr

/-- A frame in the transmit queue, and whether it is the keyed frame (R155). -/
structure TxItem where
  frame : LinkFrame
  keyed : Bool
  deriving DecidableEq, Repr

/-- The transmitter states (R158): the held backoff exists only in DEFER, the count only in BACKOFF, the spacing deadline
only in SPACING. -/
inductive TxState where
  | idle
  | defer (held : Option Nat)
  | backoff (b : Nat)
  | sending
  | spacing (deadline : Time)
  | muted
  deriving DecidableEq, Repr

/-- A stamp that carries an old mark (R183). -/
structure MarkedStamp where
  time : Time
  old : Bool
  deriving DecidableEq, Repr

/-- The frame collector of the receiver (R150): no collection, one that will be judged, or one whose carrier rose in LOADING
or CONFIG_FAULT. -/
inductive Collection where
  | idle
  | collecting
  | dropping
  deriving DecidableEq, Repr

/-- Link Controller (chapter 9). -/
structure Link where
  rx : List LinkFrame
  collection : Collection
  tx : List TxItem
  txState : TxState
  /-- the level of the input LNK_CD -/
  lnkCd : Bool
  quietSince : Option MarkedStamp
  lastSent : Option MarkedStamp
  /-- the backoff register (R163); it is 0, a value no seed or draw gives, while it is not seeded (R169; DESIGN CHOICE, log
  entry 21) -/
  register : BitVec 16
  /-- the contention window W, `none` until a load succeeds (R164) -/
  window : Option Nat
  windowDeadline : Option Time
  onsets : Count16
  deriving DecidableEq, Repr

/-! ### Configuration Loader -/

/-- The operating states (R171). -/
inductive OpState where
  | loading
  | configFault
  | running
  | flushing
  deriving DecidableEq, Repr

/-- An operation of the part on the configuration bus (R173). -/
inductive BusOp where
  /-- a clock pulse of the bus check, the data line released -/
  | clockPulse
  | start
  | repeatedStart
  | send (b : Byte)
  /-- a byte clocked in, and whether the part acknowledges it -/
  | receive (b : Byte) (acknowledged : Bool)
  | stop
  deriving DecidableEq, Repr

/-- Configuration Loader (chapter 10). -/
structure Loader where
  opState : OpState
  /-- the read buffer; empty when cleared -/
  buffer : List Byte
  /-- the image copy with its parameters clamped; empty until a load succeeds -/
  image : List Byte
  deadline : Option Time
  /-- what the part has done on the bus in the latest load, as far as its events tell -/
  bus : List BusOp
  deriving DecidableEq, Repr

/-! ### Maintenance Port -/

/-- The hold modes (R96, R193). -/
inductive HoldMode where
  | opened
  | hold
  | closed
  deriving DecidableEq, Repr

/-- The attention flags (R187). -/
structure Flags where
  configFault : Bool
  rxOverflow : Bool
  reportGap : Bool
  rosterFull : Bool
  siteClash : Bool
  cmdDropped : Bool
  deriving DecidableEq, Repr

/-- An open command frame (R184). -/
structure OpenFrame where
  code : Byte
  /-- the argument bytes, once all have arrived -/
  args : Option (List Byte)
  refused : Bool
  /-- the reply, once formed -/
  reply : Option (List Byte)
  deriving DecidableEq, Repr

/-- The record that a fetch in flight will copy: a position of a table, or its end marker (`none`) (R190). -/
structure Fetch where
  table : Fin 8
  position : Option Nat
  deriving DecidableEq, Repr

/-- Maintenance Port (chapter 11). -/
structure Port where
  busy : Bool
  frame : Option OpenFrame
  cursorTable : Fin 8
  cursorIndex : Byte
  holder : List Byte
  fetch : Option Fetch
  flags : Flags
  counters : Vector Count16 16
  hold : HoldMode
  listenOnly : Bool
  /-- the bytes clocked out on MNT_DO in the last frame that ended -/
  mntDo : List Byte
  deriving DecidableEq, Repr

/-! ### The whole part -/

/-- The state of the part and the queue of the commands that wait. -/
structure State where
  /-- RESET_N is held low (R171) -/
  resetHeld : Bool
  /-- site time (R181) -/
  now : Time
  intake : Intake
  roster : RosterEngine
  strays : StrayTracker
  hearing : Hearing
  nego : Negotiator
  steer : SteerQueue
  link : Link
  loader : Loader
  port : Port
  /-- the model's own: how many free bytes have been used (log entry 3) -/
  freeIndex : Nat
  /-- the commands that wait, first in first out -/
  pending : List Instr
  deriving DecidableEq, Repr

/-- Why a step can fault: never. No rule of the spec stops the part: a failed load, a dropped command and an overflow are
states, flags and counters (safe: there is nothing to raise). -/
inductive Fault where
  deriving DecidableEq, Repr

/-- Why a step can be refused. -/
inductive Refusal where
  /-- Raised by `exec` alone, for a command that has no meaning yet; no arm is left that raises it. Safe. -/
  | notModelled (mnemonic : String)
  /-- Raised by a meaning whose operands no port can deliver (`Instr.wellFormed` is false): a report frame that is not 65
  bytes, an image that is not 96, more than nine recovery pulses, an impossible bus progress, or an "unknown" command byte
  that is in the command table. Safe: the hardware cannot meet such a command. -/
  | illFormed
  deriving DecidableEq, Repr

/-- An unused neighbour record, the value after hard reset (R90). -/
def NeighbourRecord.unused : NeighbourRecord :=
  { site := 0, channel := 0, bias := 0, accept := false, state := .unknown, lastFrame := none, silence := none }

/-- The part right after hard reset, RESET_N still low (R171): every piece of state at the value its chapter states
(R6, R59, R74, R90, R135, R147, R169, R172, R198). -/
def State.reset : State where
  resetHeld := true
  now := 0
  intake := { collecting := false, expectation := none, locks := Vector.replicate 8 none }
  roster := { entries := Vector.replicate 64 none, pins := [] }
  strays := { entries := Vector.replicate 32 none, cursor := 0, hearingDeadline := none }
  hearing := { neighbours := Vector.replicate 8 NeighbourRecord.unused, table := Vector.replicate 128 none }
  nego := { departures := Vector.replicate 4 none, sequence := 0, last := none, previous := none }
  steer := { orders := [], admission := [], strRdy := false, strDat := [], presentations := 0 }
  link :=
    { rx := [], collection := .idle, tx := [], txState := .idle, lnkCd := false, quietSince := none, lastSent := none,
      register := 0, window := none, windowDeadline := none, onsets := 0 }
  loader := { opState := .loading, buffer := [], image := [], deadline := none, bus := [] }
  port :=
    { busy := false, frame := none, cursorTable := 0, cursorIndex := 0,
      holder := 0x00 :: 0xFF :: List.replicate 38 0x00, fetch := none,
      flags :=
        { configFault := false, rxOverflow := false, reportGap := false, rosterFull := false, siteClash := false,
          cmdDropped := false },
      counters := Vector.replicate 16 0, hold := .opened, listenOnly := false, mntDo := [] }
  freeIndex := 0
  pending := []

end Sys2Proof.Machine
end

