-- ==== Sys2Proof/Machine/Operands.lean ====
section
/-! DEFINITION. The byte formats at the part's ports: multi-byte fields, the slot record of a report frame (00_scope.md, 7.1;
R5), link frames and their CRC (7.2; R148, R149, R151), the configuration image (7.3; R14, R26, R175 to R178), the read
sequence of the configuration bus (R173). -/

namespace Sys2Proof.Machine

/-! ### Fields -/

/-- Byte `k` of a byte sequence, 0 beyond its end. -/
def byteAt (bytes : List Byte) (k : Nat) : Byte := bytes.getD k 0

/-- The radio ID at bytes `k` to `k + 2`, high byte first. -/
def radioAt (bytes : List Byte) (k : Nat) : Radio :=
  byteAt bytes k ++ byteAt bytes (k + 1) ++ byteAt bytes (k + 2)

/-- A radio ID as three bytes, high byte first. -/
def radioBytes (r : Radio) : List Byte :=
  [r.extractLsb' 16 8, r.extractLsb' 8 8, r.extractLsb' 0 8]

/-- A site-time value as four bytes, high byte first. -/
def timeBytes (t : Time) : List Byte :=
  [t.extractLsb' 24 8, t.extractLsb' 16 8, t.extractLsb' 8 8, t.extractLsb' 0 8]

/-- A 16-bit number as two bytes, high byte first. -/
def wordBytes (w : BitVec 16) : List Byte := [w.extractLsb' 8 8, w.extractLsb' 0 8]

/-- The 16-bit number at bytes `k` and `k + 1`, high byte first. -/
def wordAt (bytes : List Byte) (k : Nat) : BitVec 16 := byteAt bytes k ++ byteAt bytes (k + 1)

/-- A number as one byte. -/
def numByte (n : Nat) : Byte := BitVec.ofNat 8 n

/-- A flag as one byte, 1 for set. -/
def flagByte (b : Bool) : Byte := if b then 1 else 0

/-- A radio ID is valid unless it is 0 or 16,777,215 (00_scope.md, 5.3). -/
def validRadio (r : Radio) : Bool := r != 0 && r != 16777215

/-- A registration count byte: 0 to 15 as it stands, anything else unknown (R5, R130). -/
def countOfByte (b : Byte) : Option (BitVec 4) := if b.toNat ≤ 15 then some (b.setWidth 4) else none

/-- A registration count as a byte, 255 for unknown (00_scope.md, 5.3). -/
def countByte : Option (BitVec 4) → Byte
  | some c => c.setWidth 8
  | none => 255

/-! ### Report frames -/

/-- The kinds of observation (R15). -/
inductive ObsKind where
  | registration
  | header
  | voice
  | terminator
  | data
  | emergency
  deriving DecidableEq, Repr

/-- The kind of a slot (R5). -/
inductive SlotKind where
  | silent
  | burst (kind : ObsKind)
  | unknown
  deriving DecidableEq, Repr

/-- The kind code of a slot (00_scope.md, 7.1; R5). -/
def slotKind (code : Byte) : SlotKind :=
  match code.toNat with
  | 0 => .silent
  | 1 => .burst .registration
  | 2 => .burst .header
  | 3 => .burst .voice
  | 4 => .burst .terminator
  | 5 => .burst .data
  | 6 => .burst .emergency
  | _ => .unknown

/-- The fields of a slot record (R5). -/
structure Slot where
  kind : SlotKind
  radio : Radio
  level : Nat
  quality : Fin 8
  neighbour : Fin 8
  origin : Byte
  count : Option (BitVec 4)
  deriving DecidableEq, Repr

/-- A level byte as a level: above 200 it is 200 (R5, R18). -/
def levelOfByte (b : Byte) : Nat := min b.toNat 200

/-- The slot record at position `p` of a report frame: eight bytes from byte 1 + 8p (R5). -/
def slotAt (frame : List Byte) (p : Fin 8) : Slot :=
  let k := 1 + 8 * p.val
  { kind := slotKind (byteAt frame k)
    radio := radioAt frame (k + 1)
    level := levelOfByte (byteAt frame (k + 4))
    quality := ((byteAt frame (k + 5)).extractLsb' 0 3).toFin
    neighbour := ((byteAt frame (k + 5)).extractLsb' 4 3).toFin
    origin := byteAt frame (k + 6)
    count := countOfByte (byteAt frame (k + 7)) }

/-- Positions 6 and 7 are the monitor paths (00_scope.md, 7.1; R15). -/
def isMonitor (p : Fin 8) : Bool := decide (6 ≤ p.val)

/-- A burst observation (R15). The neighbour index is held for every position and read for monitor positions only; origin
and count are read for a REGISTRATION only. -/
structure Observation where
  radio : Radio
  kind : ObsKind
  level : Nat
  quality : Fin 8
  position : Fin 8
  neighbour : Fin 8
  origin : Byte
  count : Option (BitVec 4)
  deriving DecidableEq, Repr

/-! ### Link frames -/

/-- The code of a frame kind (00_scope.md, 7.2). -/
def FrameKind.code : FrameKind → Byte
  | .heard => 0x11
  | .ask => 0x21
  | .take => 0x22
  | .decline => 0x23
  | .homed => 0x31

/-- The kind that a code names (test 3 of R151). -/
def frameKindOf (code : Byte) : Option FrameKind :=
  match code.toNat with
  | 0x11 => some .heard
  | 0x21 => some .ask
  | 0x22 => some .take
  | 0x23 => some .decline
  | 0x31 => some .homed
  | _ => none

/-- One data bit into the CRC remainder (R149). -/
def crcBit (rem : BitVec 16) (bit : Bool) : BitVec 16 :=
  if rem.getLsbD 15 ^^ bit then (rem <<< 1) ^^^ 0x1021#16 else rem <<< 1

/-- One byte into the CRC remainder, most significant bit first (R149). -/
def crcByte (rem : BitVec 16) (b : Byte) : BitVec 16 :=
  [7, 6, 5, 4, 3, 2, 1, 0].foldl (fun r i => crcBit r (b.getLsbD i)) rem

/-- The CRC-16 of a byte sequence, from a remainder of all ones, not inverted (R149). -/
def crc16 (bytes : List Byte) : BitVec 16 := bytes.foldl crcByte 0xFFFF#16

/-- Bytes 0 to the last byte of the body (00_scope.md, 7.2). -/
def framePrefix (dest source : Byte) (kind : FrameKind) (body : List Byte) : List Byte :=
  dest :: source :: kind.code :: numByte body.length :: body

/-- The frame that the Link Controller completes from an offer: own site as source, kind, length and CRC (R148). -/
def completeFrame (own dest : Byte) (kind : FrameKind) (body : List Byte) : LinkFrame :=
  { dest := dest, source := own, kind := kind, body := body, crc := crc16 (framePrefix dest own kind body) }

/-- A frame byte for byte as it is keyed (R148). -/
def LinkFrame.bytes (f : LinkFrame) : List Byte := framePrefix f.dest f.source f.kind f.body ++ wordBytes f.crc

/-- HEARD frames are one class, all others are negotiation frames (R148). -/
def LinkFrame.isHeard (f : LinkFrame) : Bool := f.kind == .heard

/-- The body length of test 4 of R151: that of the kind, and for HEARD a count of 0 to 6 and a length of 1 + 4n. -/
def bodyFits (kind : FrameKind) (body : List Byte) : Bool :=
  match kind with
  | .heard =>
    !body.isEmpty && decide ((byteAt body 0).toNat ≤ 6) && decide (body.length = 1 + 4 * (byteAt body 0).toNat)
  | .ask => body.length == 7
  | .take => body.length == 5
  | .decline => body.length == 5
  | .homed => body.length == 5

/-- What judging a received frame can answer (R151). -/
inductive Judgement where
  /-- tests 1 to 5: discarded and counted in counter 11 -/
  | discarded
  /-- test 6: the source is this site's own number (R152) -/
  | clash
  | passed (frame : LinkFrame)
  deriving DecidableEq, Repr

/-- The tests of R151 on the collected bytes, in order, at the site numbered `own`. -/
def judge (own : Byte) (bytes : List Byte) : Judgement :=
  let bodyLength := (byteAt bytes 3).toNat
  let body := (bytes.drop 4).take bodyLength
  let crc := wordAt bytes (4 + bodyLength)
  if bytes.length < 6 || Config.longestFrame < bytes.length || bytes.length != 6 + bodyLength then .discarded
  else if crc16 (bytes.take (4 + bodyLength)) != crc then .discarded
  else
    match frameKindOf (byteAt bytes 2) with
    | none => .discarded
    | some kind =>
      if !bodyFits kind body then .discarded
      else if byteAt bytes 1 == 0 || byteAt bytes 1 == 255 then .discarded
      else if byteAt bytes 1 == own then .clash
      else .passed { dest := byteAt bytes 0, source := byteAt bytes 1, kind := kind, body := body, crc := crc }

/-- The radio and level of each pair of a HEARD body, in order (00_scope.md, 7.2); levels above 200 are 200 (R18, R81). -/
def heardPairs (body : List Byte) : List (Radio × Nat) :=
  (List.range (byteAt body 0).toNat).map fun k => (radioAt body (1 + 4 * k), levelOfByte (byteAt body (4 + 4 * k)))

/-- The body of a HEARD notice: the count and the pairs (R69, R70). -/
def heardBody (pairs : List (Radio × Nat)) : List Byte :=
  numByte pairs.length :: pairs.flatMap fun p => radioBytes p.1 ++ [numByte p.2]

/-- The body of an ASK: radio, sequence, own level, neighbour level, flags with bit 0 emergency and bit 1 rescue (R114). -/
def askBody (d : Departure) : List Byte :=
  radioBytes d.radio
    ++ [d.sequence, numByte d.ownLevel, numByte d.neighbourLevel,
      (if d.emergency then 1 else 0) ||| (if d.rescue then 2 else 0)]

/-- The body of a TAKE or a DECLINE: radio, sequence, and the hold time or the reason (00_scope.md, 7.2). -/
def answerBody (radio : Radio) (sequence last : Byte) : List Byte := radioBytes radio ++ [sequence, last]

/-- The body of a HOMED: radio, registration count, origin (R129). -/
def homedBody (e : RosterEntry) : List Byte :=
  radioBytes e.radio ++ [countByte e.count, (e.arrival.map Arrival.origin).getD 0]

/-! ### The configuration image -/

/-- The byte of a parameter in the image (00_scope.md, 7.3). -/
def paramByte : Config.Param → Nat
  | .filterShift => 52 | .fadeLimit => 53 | .hysteresis => 54 | .rescueFloor => 55 | .reportFloor => 56 | .dwell => 57
  | .askTimeout => 58 | .askAttempts => 59 | .declineHold => 60 | .arrivalTimeout => 61 | .leaveMargin => 62
  | .lostTime => 63 | .silenceTime => 64 | .strayAge => 65 | .hearingMaxAge => 66 | .hearingPeriod => 67
  | .presencePeriod => 68 | .idleGap => 69 | .txSpacing => 70 | .initialWindow => 71 | .loadThreshold => 72
  | .steerRepeats => 73 | .pingPongGuard => 74 | .emergencyClear => 75 | .callHang => 76 | .awayLoss => 77

/-- The parameter that stands at a byte of the image, if one does. -/
def paramAt (k : Nat) : Option Config.Param :=
  [.filterShift, .fadeLimit, .hysteresis, .rescueFloor, .reportFloor, .dwell, .askTimeout, .askAttempts, .declineHold,
    .arrivalTimeout, .leaveMargin, .lostTime, .silenceTime, .strayAge, .hearingMaxAge, .hearingPeriod, .presencePeriod,
    .idleGap, .txSpacing, .initialWindow, .loadThreshold, .steerRepeats, .pingPongGuard, .emergencyClear, .callHang,
    .awayLoss].find? fun p => paramByte p == k

/-- The least and greatest value of a parameter (R177). -/
def paramRange : Config.Param → Nat × Nat
  | .filterShift => (1, 4) | .fadeLimit => (4, 80) | .hysteresis => (0, 31) | .rescueFloor => (0, 200)
  | .reportFloor => (0, 200) | .dwell => (1, 100) | .askTimeout => (2, 50) | .askAttempts => (1, 4)
  | .declineHold => (1, 120) | .arrivalTimeout => (10, 200) | .leaveMargin => (0, 100) | .lostTime => (10, 255)
  | .silenceTime => (5, 255) | .strayAge => (2, 60) | .hearingMaxAge => (2, 60) | .hearingPeriod => (5, 100)
  | .presencePeriod => (2, 60) | .idleGap => (1, 20) | .txSpacing => (0, 50) | .initialWindow => (4, 64)
  | .loadThreshold => (1, 255) | .steerRepeats => (1, 8) | .pingPongGuard => (0, 255) | .emergencyClear => (5, 255)
  | .callHang => (5, 100) | .awayLoss => (1, 60)

/-- A number of 4 to 64 rounded down to a power of two (R177). -/
def roundWindow (v : Nat) : Nat :=
  if 64 ≤ v then 64 else if 32 ≤ v then 32 else if 16 ≤ v then 16 else if 8 ≤ v then 8 else 4

/-- The value held for a parameter byte read as `v`: the nearer limit outside the range, and for initial W then rounded down
to a power of two (R177). -/
def clampParam (p : Config.Param) (v : Nat) : Nat :=
  let clamped := max (paramRange p).1 (min v (paramRange p).2)
  if p = .initialWindow then roundWindow clamped else clamped

/-- The image copy made of a read buffer: every parameter byte clamped, every other byte as read (R177, R179). -/
def clampImage (buffer : List Byte) : List Byte :=
  (List.range Config.imageSize).map fun k =>
    match paramAt k with
    | some p => numByte (clampParam p (byteAt buffer k).toNat)
    | none => byteAt buffer k

/-- The four bytes of neighbour entry `n` start here (00_scope.md, 7.3). -/
def neighbourBase (n : Nat) : Nat := 4 + 4 * n

/-- Neighbour entry `n` is used and has one of the faults of R175. -/
def neighbourFault (image : List Byte) (n : Nat) : Bool :=
  let site := byteAt image (neighbourBase n)
  let channel := byteAt image (neighbourBase n + 1)
  site != 0
    && (site == 255 || site == byteAt image 1
      || ((List.range 8).any fun m => m != n && byteAt image (neighbourBase m) == site)
      || channel == 0 || channel == byteAt image 2)

/-- All checks of R175 pass, on the bytes as read. -/
def imagePasses (image : List Byte) : Bool :=
  byteAt image 0 == 0x54
    && ((List.range Config.imageSize).foldl (fun sum k => sum + byteAt image k) (0 : Byte)) == 0
    && byteAt image 1 != 0 && byteAt image 1 != 255
    && (List.range 8).all fun n => !neighbourFault image n

/-- The bias trim of a neighbour entry's third byte: its low 5 bits as a signed number (R26). -/
def biasOfByte (b : Byte) : Int := (b.extractLsb' 0 5).toInt

/-- Neighbour record `n` as a successful load forms it, UNKNOWN (R90, R178). -/
def neighbourOfImage (image : List Byte) (n : Nat) : NeighbourRecord :=
  let k := neighbourBase n
  if byteAt image k == 0 then NeighbourRecord.unused
  else
    { site := byteAt image k, channel := byteAt image (k + 1), bias := biasOfByte (byteAt image (k + 2)),
      accept := (byteAt image (k + 3)).getLsbD 0, state := .unknown, lastFrame := none, silence := none }

/-- The length exponent of a range, 24 to 254 taken as 23; 255 is an unused range (R14). -/
def rangeExponent (e : Byte) : Option Nat := if e == 255 then none else some (min e.toNat 23)

/-- The radio lies in the used admitted range `k`: its top 24 − e bits equal those of the base (R14). -/
def inRange (image : List Byte) (k : Nat) (r : Radio) : Bool :=
  match rangeExponent (byteAt image (36 + 4 * k + 3)) with
  | some e => r >>> e == radioAt image (36 + 4 * k) >>> e
  | none => false

/-- The admission check: in a used range, or no range is used (R14). -/
def admitted (image : List Byte) (r : Radio) : Bool :=
  ((List.range 4).any fun k => inRange image k r)
    || (List.range 4).all fun k => (rangeExponent (byteAt image (36 + 4 * k + 3))).isNone

/-! ### The configuration bus -/

/-- The start and address phase of the read sequence (R173, steps 2 and 3). -/
def addressPhase : List BusOp := [.start, .send 0xAE, .send 0x00, .repeatedStart, .send 0xAF]

/-- The bytes clocked in, each acknowledged but the one after byte 94 (R173, step 3). -/
def receiveOps (bytes : List Byte) : List BusOp :=
  bytes.mapIdx fun k b => .receive b (decide (k < Config.imageSize - 1))

/-- The whole read sequence after `pulses` recovery pulses (R173). -/
def readSequence (pulses : Nat) (bytes : List Byte) : List BusOp :=
  List.replicate pulses .clockPulse ++ addressPhase ++ receiveOps bytes ++ [.stop]

/-- The operations up to the byte whose acknowledge is missing, and the stop condition (R174). -/
def missingAckSequence (pulses : Nat) (point : AckPoint) : List BusOp :=
  let done := match point with
    | .deviceWrite => 2
    | .wordAddress => 3
    | .deviceRead => 5
  List.replicate pulses .clockPulse ++ addressPhase.take done ++ [.stop]

/-- Nine clock pulses and no stop condition: a data line held low does not allow one (R173, R174; DEDUCED, log entry 6). -/
def stuckSequence : List BusOp := List.replicate 9 .clockPulse

/-- What was done when the load deadline was reached, and a stop condition unless the memory holds the clock low (R174;
DEDUCED, log entry 6). -/
def deadlineSequence (p : BusProgress) (clockHeld : Bool) : List BusOp :=
  List.replicate p.pulses .clockPulse ++ addressPhase.take p.addressed ++ receiveOps p.bytes
    ++ if clockHeld then [] else [.stop]

end Sys2Proof.Machine
end

