-- ==== Sys2Proof/Machine/Flags.lean ====
section
/-! DEFINITION. The sixteen event counters, the six attention flags and ATTN (R187, R192), as operations of the Maintenance
Port that holds them. -/

namespace Sys2Proof.Machine

/-- The event counters, in the order of their numbers 1 to 16 (R192). -/
inductive Counter where
  | handoversConfirmed | asksSent | asksDeclined | asksTimedOut | steerFailed | handsetsLost | registrationsRefused
  | nonAdmitted | orphanBursts | reportGaps | linkDiscarded | rxOverflow | txDropped | siteClash | takesGiven | takesExpired
  deriving DecidableEq, Repr

/-- The number of a counter, less one (R192). -/
def Counter.index : Counter → Fin 16
  | .handoversConfirmed => 0 | .asksSent => 1 | .asksDeclined => 2 | .asksTimedOut => 3 | .steerFailed => 4
  | .handsetsLost => 5 | .registrationsRefused => 6 | .nonAdmitted => 7 | .orphanBursts => 8 | .reportGaps => 9
  | .linkDiscarded => 10 | .rxOverflow => 11 | .txDropped => 12 | .siteClash => 13 | .takesGiven => 14
  | .takesExpired => 15

/-- An increase by one that stays at 65,535 (R192). -/
def saturate (c : Count16) : Count16 := if c = 65535 then c else c + 1

/-- Increase a counter by one (R192). -/
def Port.bump (c : Counter) (p : Port) : Port :=
  { p with counters := p.counters.set c.index (saturate p.counters[c.index]) }

/-- Increase a counter by one when `b` holds. -/
def Port.bumpIf (b : Bool) (c : Counter) (p : Port) : Port := if b then p.bump c else p

/-- The six attention flags (R187). -/
inductive FlagName where
  | configFault | rxOverflow | reportGap | rosterFull | siteClash | cmdDropped
  deriving DecidableEq, Repr

/-- Set one flag, which stays set if it was (R187). -/
def Flags.raise (n : FlagName) (f : Flags) : Flags :=
  match n with
  | .configFault => { f with configFault := true }
  | .rxOverflow => { f with rxOverflow := true }
  | .reportGap => { f with reportGap := true }
  | .rosterFull => { f with rosterFull := true }
  | .siteClash => { f with siteClash := true }
  | .cmdDropped => { f with cmdDropped := true }

/-- Set a flag of the port (R187). -/
def Port.raise (n : FlagName) (p : Port) : Port := { p with flags := p.flags.raise n }

/-- Set a flag of the port when `b` holds. -/
def Port.raiseIf (b : Bool) (n : FlagName) (p : Port) : Port := if b then p.raise n else p

/-- The flags as the byte that PEEK ATTENTION shows (R187). -/
def Flags.toByte (f : Flags) : Byte :=
  (if f.configFault then 1 else 0) ||| (if f.rxOverflow then 2 else 0) ||| (if f.reportGap then 4 else 0)
    ||| (if f.rosterFull then 8 else 0) ||| (if f.siteClash then 16 else 0) ||| (if f.cmdDropped then 32 else 0)

/-- Clear exactly the flags that a reply byte shows set (R188). -/
def Flags.without (f : Flags) (shown : Byte) : Flags :=
  { configFault := f.configFault && !shown.getLsbD 0
    rxOverflow := f.rxOverflow && !shown.getLsbD 1
    reportGap := f.reportGap && !shown.getLsbD 2
    rosterFull := f.rosterFull && !shown.getLsbD 3
    siteClash := f.siteClash && !shown.getLsbD 4
    cmdDropped := f.cmdDropped && !shown.getLsbD 5 }

/-- ATTN is asserted while at least one flag is set (R187). -/
def Flags.attn (f : Flags) : Bool :=
  f.configFault || f.rxOverflow || f.reportGap || f.rosterFull || f.siteClash || f.cmdDropped

/-- The thirty-two bytes of a READ COUNTERS reply: counter 1 first, high byte first (R192). -/
def counterBytes (counters : Vector Count16 16) : List Byte := counters.toList.flatMap wordBytes

/-- Each counter reduced by the value a READ COUNTERS reply showed for it (R192). -/
def reduceCounters (counters : Vector Count16 16) (shown : List Byte) : Vector Count16 16 :=
  ⟨(counters.toList.mapIdx fun n c => c - wordAt shown (2 * n)).toArray, by simp⟩

end Sys2Proof.Machine
end

