-- ==== Sys2Proof/Machine/Levels.lean ====
section
/-! DEFINITION. The signal level arithmetic of chapter 2 (R18 to R31), on plain numbers. -/

namespace Sys2Proof.Machine

/-- The penalty of a quality class (R19). -/
def penalty (q : Fin 8) : Nat :=
  match q with
  | 0 => 0 | 1 => 0 | 2 => 2 | 3 => 4 | 4 => 8 | 5 => 12 | 6 => 20 | 7 => 30

/-- The effective level of a sample: v − penalty, not below 0 (R19). -/
def effectiveLevel (v : Nat) (q : Fin 8) : Nat := v - penalty q

/-- The own level of a record that holds `f`: f rounded half up to a whole level (R23). -/
def ownLevel (f : Nat) : Nat := (f + 8) / 16

/-- The fade clamp: an effective level below own − fade limit is raised to it (R20). -/
def fadeClamp (fadeLimit f le : Nat) : Nat := max le (ownLevel f - fadeLimit)

/-- The seeded F of a first sample (R21). -/
def seedF (v : Nat) (q : Fin 8) : Nat := effectiveLevel v q * 16

/-- The signed step of the filter for a difference `delta`: delta / 2^s truncated toward zero, and a nudge of one where that
is 0 and delta is not (R22). -/
def filterDelta (shift : Nat) (delta : Int) : Int :=
  let step := delta.tdiv (2 ^ shift)
  if step = 0 then delta.sign else step

/-- One filter step of `f` toward the effective level `le` (R22). -/
def filterStep (shift f le : Nat) : Nat := (f + filterDelta shift ((le * 16 : Nat) - (f : Int))).toNat

/-- The F of a record that holds `f` after a sample of level `v` and class `q`: penalty, fade clamp, filter step (R19, R20,
R22). -/
def observeF (shift fadeLimit f v : Nat) (q : Fin 8) : Nat :=
  filterStep shift f (fadeClamp fadeLimit f (effectiveLevel v q))

/-- The effective hysteresis: H, doubled toward the origin within the guard period, then halved in rescue (R28, R29). -/
def effectiveHysteresis (h : Nat) (doubled inRescue : Bool) : Nat :=
  let h' := if doubled then 2 * h else h
  if inRescue then h' / 2 else h'

/-- The effective dwell in ticks: dwell × 10, halved in rescue with a minimum of 1 (R30). -/
def effectiveDwell (dwell : Nat) (inRescue : Bool) : Nat :=
  if inRescue then max 1 (dwell * 10 / 2) else dwell * 10

end Sys2Proof.Machine
end

