-- ==== Sys2Proof/Machine/Slots.lean ====
section
/-! DEFINITION. Tables of a fixed number of positions, each holding an entry or free, and choices among them: the first, the
count, the greatest. Every choice is by the lowest index unless a score decides first. -/

namespace Sys2Proof.Machine

/-- Apply `f` at every position. -/
def mapSlots {α β : Type} {n : Nat} (f : α → β) (v : Vector α n) : Vector β n :=
  ⟨(v.toList.map f).toArray, by simp⟩

/-- Apply `f` to every entry held. -/
def mapEntries {α : Type} {n : Nat} (f : α → α) (v : Vector (Option α) n) : Vector (Option α) n :=
  mapSlots (Option.map f) v

/-- Free every position whose entry satisfies `p`. -/
def dropEntries {α : Type} {n : Nat} (p : α → Bool) (v : Vector (Option α) n) : Vector (Option α) n :=
  mapSlots (fun o => o.filter fun e => !p e) v

/-- The lowest index whose entry satisfies `p`. -/
def findEntry {α : Type} {n : Nat} (p : α → Bool) (v : Vector (Option α) n) : Option (Fin n) :=
  (List.finRange n).find? fun i => v[i].any p

/-- The lowest free index. -/
def lowestFree {α : Type} {n : Nat} (v : Vector (Option α) n) : Option (Fin n) :=
  (List.finRange n).find? fun i => v[i].isNone

/-- How many positions hold an entry. -/
def heldCount {α : Type} {n : Nat} (v : Vector (Option α) n) : Nat :=
  (List.finRange n).countP fun i => v[i].isSome

/-- Change the entry at `i`, if there is one. -/
def updateAt {α : Type} {n : Nat} (v : Vector (Option α) n) (i : Fin n) (f : α → α) : Vector (Option α) n :=
  v.set i (v[i].map f)

/-- The index with the greatest score and that score; of equal scores the lowest index. Indices without a score are passed
over. -/
def pickGreatest {n : Nat} (score : Fin n → Option Int) : Option (Fin n × Int) :=
  (List.finRange n).foldl
    (fun best i =>
      match score i, best with
      | none, _ => best
      | some a, none => some (i, a)
      | some a, some (k, b) => if b < a then some (i, a) else some (k, b))
    none

end Sys2Proof.Machine
end

