-- ==== Sys2Proof/Machine/Timing.lean ====
section
/-! DEFINITION. Arithmetic of stamps and deadlines, modulo 2^32 (R181, R182). -/

namespace Sys2Proof.Machine

/-- The deadline "now + t": `t` ticks after `now`, modulo 2^32 (R182). -/
def after (now : Time) (t : Nat) : Time := now + BitVec.ofNat 32 t

/-- Elapsed time from a stamp: now − stamp, modulo 2^32 (R182). -/
def elapsed (now stamp : Time) : Nat := (now - stamp).toNat

/-- Time remaining to a deadline: deadline − now, modulo 2^32 (R182). -/
def remaining (now deadline : Time) : Nat := (deadline - now).toNat

/-- A deadline that is held is reached when site time equals it (R182). -/
def reached (now : Time) (deadline : Option Time) : Bool := deadline == some now

end Sys2Proof.Machine
end

