-- ==== Sys2Proof/WellFormed.lean ====
section
/-! DEFINITION. Which commands the part's ports can deliver: lengths of the frames and of the image, and command bytes that
are indeed outside the command table. -/

namespace Sys2Proof

/-- The command bytes of the command table (R184). -/
def portCodes : List Byte :=
  [0x01, 0x02, 0x03, 0x10, 0x11, 0x12, 0x20, 0x21, 0x22, 0x23, 0x30, 0x31]

/-- The progress is one that the read sequence of R173 can have made: at most nine recovery pulses, five operations of the
address phase, and bytes only after all five. -/
def BusProgress.wellFormed (p : BusProgress) : Bool :=
  decide (p.pulses ≤ 9) && decide (p.addressed ≤ 5) && decide (p.bytes.length ≤ Config.imageSize)
    && (p.bytes.isEmpty || p.addressed == 5)

/-- The operands are ones that the part's ports can deliver. -/
def Instr.wellFormed : Instr → Bool
  | .hardReset => true
  | .resetRelease => true
  | .readComplete pulses image => decide (pulses ≤ 9) && image.length == Config.imageSize
  | .missingAcknowledge pulses _ => decide (pulses ≤ 9)
  | .stuckDataLine => true
  | .loadDeadline progress _ => progress.wellFormed
  | .tick => true
  | .oldMark _ => true
  | .reportFrameStart => true
  | .reportFrame frame => frame.length == Config.reportSize
  | .lostDeadline _ => true
  | .callActiveDeadline _ => true
  | .emergencyClear _ => true
  | .guardPeriodEnd _ => true
  | .reservationDeadline _ => true
  | .dwellExpiry _ => true
  | .exclusionDeadline _ => true
  | .answerDeadline _ => true
  | .leaveDeadline _ => true
  | .strayAgeDeadline _ => true
  | .hearingPeriodExpiry => true
  | .silenceDeadline _ => true
  | .hearingExpiry _ => true
  | .idleGapDeadline => true
  | .backoffEnd => true
  | .spacingEnd => true
  | .windowEnd => true
  | .carrierOnset => true
  | .carrierFall _ => true
  | .dispatch => true
  | .sentReport => true
  | .takenStrobe => true
  | .status _ => true
  | .peekAttention _ => true
  | .takeAttention _ => true
  | .selectTable _ _ _ => true
  | .readEntry _ => true
  | .fetchComplete => true
  | .readCounters _ _ => true
  | .setHold _ _ => true
  | .pin _ _ => true
  | .unpin _ _ => true
  | .listenOnly _ _ => true
  | .flush _ => true
  | .flushComplete => true
  | .reload _ => true
  | .unknownCommand code _ => !portCodes.contains code

end Sys2Proof
end

