-- ==== Sys2Proof/Machine/Ops.lean ====
section
/-! DEFINITION. The named updates of the state, one per block, the reads that every block makes (parameters, own site,
operating state), and the shapes of a meaning: a command that the part takes unless RESET_N is held low. -/

namespace Sys2Proof.Machine

/-! ### Updates -/

/-- The state with `resetHeld` replaced. -/
def State.withReset (s : State) (x : Bool) : State := { s with resetHeld := x }

/-- The state with `now` replaced. -/
def State.withNow (s : State) (x : Time) : State := { s with now := x }

/-- The state with `intake` replaced. -/
def State.withIntake (s : State) (x : Intake) : State := { s with intake := x }

/-- The state with `roster` replaced. -/
def State.withRoster (s : State) (x : RosterEngine) : State := { s with roster := x }

/-- The state with `strays` replaced. -/
def State.withStrays (s : State) (x : StrayTracker) : State := { s with strays := x }

/-- The state with `hearing` replaced. -/
def State.withHearing (s : State) (x : Hearing) : State := { s with hearing := x }

/-- The state with `nego` replaced. -/
def State.withNego (s : State) (x : Negotiator) : State := { s with nego := x }

/-- The state with `steer` replaced. -/
def State.withSteer (s : State) (x : SteerQueue) : State := { s with steer := x }

/-- The state with `link` replaced. -/
def State.withLink (s : State) (x : Link) : State := { s with link := x }

/-- The state with `loader` replaced. -/
def State.withLoader (s : State) (x : Loader) : State := { s with loader := x }

/-- The state with `port` replaced. -/
def State.withPort (s : State) (x : Port) : State := { s with port := x }

/-- The state with `freeIndex` replaced. -/
def State.withFreeIndex (s : State) (x : Nat) : State := { s with freeIndex := x }

/-- The state with `pending` replaced. -/
def State.withPending (s : State) (x : List Instr) : State := { s with pending := x }

/-- Increase an event counter (R192). -/
def State.bump (c : Counter) (s : State) : State := s.withPort (s.port.bump c)

/-- Increase an event counter when `b` holds (R192). -/
def State.bumpIf (b : Bool) (c : Counter) (s : State) : State := s.withPort (s.port.bumpIf b c)

/-- Set an attention flag (R187). -/
def State.raise (n : FlagName) (s : State) : State := s.withPort (s.port.raise n)

/-- Set an attention flag when `b` holds (R187). -/
def State.raiseIf (b : Bool) (n : FlagName) (s : State) : State := s.withPort (s.port.raiseIf b n)

/-! ### Reads -/

/-- The clamped value of a parameter, read from the image copy (R177). -/
def State.par (s : State) (p : Config.Param) : Nat := (byteAt s.loader.image (paramByte p)).toNat

/-- This site's number, byte 1 of the image copy (R178). -/
def State.ownSite (s : State) : Byte := byteAt s.loader.image 1

/-- The operating state is RUNNING. -/
def State.running (s : State) : Bool := s.loader.opState == .running

/-- The first load has succeeded: the operating state is RUNNING or FLUSHING (R171). -/
def State.loaded (s : State) : Bool := s.loader.opState == .running || s.loader.opState == .flushing

/-- The deadline `t` ticks from now (R182). -/
def State.due (s : State) (t : Nat) : Time := after s.now t

/-- LNK_KEY (R158). -/
def State.lnkKey (s : State) : Bool := s.link.txState == .sending

/-- The bytes shifted out on LNK_TXD: those of the keyed frame (R148, R161). -/
def State.lnkTxd (s : State) : List Byte := (s.link.tx.filter TxItem.keyed).flatMap fun x => x.frame.bytes

/-- ATTN (R187). -/
def State.attn (s : State) : Bool := s.port.flags.attn

/-! ### The shape of a meaning -/

/-- The part takes the command, unless RESET_N is held low: then it takes nothing (R171). -/
def serve (f : State → State) (s : State) : Host.Outcome State Fault Refusal :=
  .next (if s.resetHeld then s else f s)

/-- As `serve`, for a command whose operands the part's ports can deliver; any other is refused. -/
def serveIf (wellFormed : Bool) (f : State → State) (s : State) : Host.Outcome State Fault Refusal :=
  if wellFormed then serve f s else .refused .illFormed

end Sys2Proof.Machine
end

