-- ==== Sys2Proof/Machine/LinkLayer.lean ====
section
/-! DEFINITION. The Link Controller's shared operations: the transmit queue and its classes (R155, R156), the transmitter
(R158 to R162), the backoff register (R163), the receive queue (R153), and the offer of a frame (R148). -/

namespace Sys2Proof.Machine

/-! ### The transmitter -/

/-- The channel has been quiet for `t` ticks (R158); a stamp marked old meets every such test (R183). -/
def Link.quietFor (now : Time) (t : Nat) (l : Link) : Bool :=
  match l.quietSince with
  | some m => m.old || decide (t ≤ elapsed now m.time)
  | none => false

/-- One shift of the backoff register: stage 1 takes the exclusive-OR of stages 16, 14, 13 and 11 (R163). -/
def shiftRegister (r : BitVec 16) : BitVec 16 :=
  let feedback := r.getLsbD 15 ^^ r.getLsbD 13 ^^ r.getLsbD 12 ^^ r.getLsbD 10
  (r <<< 1) ||| (if feedback then 1 else 0)

/-- Keying: LNK_KEY is asserted (SENDING), the head frame becomes the keyed frame, the quiet-since stamp is removed (R161). -/
def Link.key (l : Link) : Link :=
  match l.tx with
  | [] => l
  | head :: rest => { l with tx := { head with keyed := true } :: rest, quietSince := none, txState := .sending }

/-- Enter BACKOFF with count `b`; a count of 0 keys in the same event (R160, R161). -/
def Link.enterBackoff (b : Nat) (l : Link) : Link :=
  let l' := { l with txState := .backoff b }
  if b = 0 then l'.key else l'

/-- The end of the idle gap in DEFER: resume the held count, or draw one from the register modulo W (R160, R163). -/
def Link.idleGapEnd (held : Option Nat) (l : Link) : Link :=
  match held with
  | some b => l.enterBackoff b
  | none =>
    let register := shiftRegister l.register
    { l with register := register }.enterBackoff (register.toNat % l.window.getD 1)

/-- Enter DEFER; where the channel has already been quiet for the idle gap, act at once (R160). -/
def Link.enterDefer (now : Time) (idleGap : Nat) (held : Option Nat) (l : Link) : Link :=
  let l' := { l with txState := .defer held }
  if l'.quietFor now idleGap then l'.idleGapEnd held else l'

/-- The start from IDLE: fall through where the channel has been quiet for idle gap + W ticks, else DEFER (R159). -/
def Link.start (now : Time) (idleGap : Nat) (l : Link) : Link :=
  if l.quietFor now (idleGap + l.window.getD 0) then l.key else l.enterDefer now idleGap none

/-- The end of SPACING: DEFER with no held backoff if a frame waits, IDLE otherwise (R162). -/
def Link.endSpacing (now : Time) (idleGap : Nat) (l : Link) : Link :=
  if l.tx.isEmpty then { l with txState := .idle } else l.enterDefer now idleGap none

/-- The quiet-since stamp set to now, its old mark clear, if LNK_CD is low (R158, R183). -/
def Link.becomeQuiet (now : Time) (l : Link) : Link :=
  if l.lnkCd then l else { l with quietSince := some { time := now, old := false } }

/-- The key is dropped and the keyed frame abandoned, if one is being sent: the quiet-since stamp becomes now if LNK_CD is
low (R158, R167, R170). -/
def Link.dropKey (now : Time) (l : Link) : Link :=
  if l.txState = .sending then l.becomeQuiet now else l

/-! ### The transmit queue -/

/-- What becomes of an offered frame (R155, R156). -/
inductive OfferVerdict where
  | discarded
  | accepted
  /-- accepted, the HEARD frame that is not keyed being removed -/
  | displacing
  deriving DecidableEq, Repr

/-- The verdict on an offer of a frame of `kind` (R155, R156). -/
def Link.verdict (running : Bool) (kind : FrameKind) (l : Link) : OfferVerdict :=
  if !running || l.txState == .muted then .discarded
  else if kind = .heard then
    if (l.tx.any fun x => x.frame.isHeard) || decide (Config.linkQueueSize ≤ l.tx.length) then .discarded else .accepted
  else if l.tx.length < Config.linkQueueSize then .accepted
  else if l.tx.any fun x => x.frame.isHeard && !x.keyed then .displacing
  else .discarded

/-- The queue with a frame accepted: a negotiation frame behind the last negotiation frame and ahead of any HEARD frame, a
HEARD frame at the tail (R155, R156). -/
def insertFrame (f : LinkFrame) (tx : List TxItem) : List TxItem :=
  if f.isHeard then tx ++ [{ frame := f, keyed := false }]
  else
    (tx.filter fun x => !x.frame.isHeard) ++ { frame := f, keyed := false } :: tx.filter fun x => x.frame.isHeard

/-- The Link Controller after an offer (R156); a frame accepted into an empty queue in IDLE starts the transmitter (R159). -/
def Link.offer (now : Time) (idleGap : Nat) (running : Bool) (f : LinkFrame) (l : Link) : Link :=
  match l.verdict running f.kind with
  | .discarded => l
  | .accepted =>
    let l' := { l with tx := insertFrame f l.tx }
    if l.txState = .idle ∧ l.tx = [] then l'.start now idleGap else l'
  | .displacing => { l with tx := insertFrame f (l.tx.filter fun x => !(x.frame.isHeard && !x.keyed)) }

/-- Whether an offer of a frame of `kind` would be accepted: what the offering block is told (R156). -/
def State.accepts (kind : FrameKind) (s : State) : Bool := s.link.verdict s.running kind != .discarded

/-- A frame offered to the transmit queue: completed (R148), accepted or discarded (R156); a discard and a displacement are
each counted in counter 13. -/
def State.offer (dest : Byte) (kind : FrameKind) (body : List Byte) (s : State) : State :=
  let counted := s.link.verdict s.running kind != .accepted
  (s.withLink (s.link.offer s.now (s.par .idleGap) s.running (completeFrame s.ownSite dest kind body))).bumpIf counted
    .txDropped

/-! ### The receive queue -/

/-- The receive queue is full (R153). -/
def Link.rxFull (l : Link) : Bool := decide (Config.linkQueueSize ≤ l.rx.length)

/-- A judged frame joins the tail of the receive queue, if there is room (R153). -/
def Link.receive (f : LinkFrame) (l : Link) : Link := if l.rxFull then l else { l with rx := l.rx ++ [f] }

end Sys2Proof.Machine
end

