-- ==== Sys2Proof/Machine/ClockEvents.lean ====
section
/-! DEFINITION. Site time: TICK and OLD_MARK (R181 to R183). -/

namespace Sys2Proof.Machine

/-- The backoff count at a tick: one less, not below 0 (R161). -/
def Link.countDown (l : Link) : Link :=
  match l.txState with
  | .backoff b => { l with txState := .backoff (b - 1) }
  | _ => l

/-- TICK: site time advances by one modulo 2^32 (R181), and in BACKOFF the count decreases by one (R161). The deadlines at
the new value are events of their own; the keying of a count that has become 0 is BACKOFF_END (log entry 8). -/
def execTick (s : State) : Host.Outcome State Fault Refusal :=
  serve (fun s => (s.withNow (s.now + 1)).withLink s.link.countDown) s

/-- A stamp from which exactly 25,500 ticks have elapsed is marked old; no other is changed (R183). -/
def MarkedStamp.age (now : Time) (m : MarkedStamp) : MarkedStamp :=
  if elapsed now m.time = Config.oldAge then { m with old := true } else m

/-- OLD_MARK: the old mark of the named stamp is set when 25,500 ticks have elapsed from it (R183). -/
def execOldMark (stamp : StampName) (s : State) : Host.Outcome State Fault Refusal :=
  serve
    (fun s =>
      match stamp with
      | .lastSent => s.withLink { s.link with lastSent := s.link.lastSent.map (MarkedStamp.age s.now) }
      | .quietSince => s.withLink { s.link with quietSince := s.link.quietSince.map (MarkedStamp.age s.now) })
    s

end Sys2Proof.Machine
end

