-- ==== Sys2Proof/Machine/HearingLayer.lean ====
section
/-! DEFINITION. The Hearing Table's shared operations: the neighbour records and the hearing table (R75 to R88). -/

namespace Sys2Proof.Machine

/-- The used neighbour record whose site number is `site` (R77). -/
def Hearing.neighbourOf (site : Byte) (h : Hearing) : Option (Fin 8) :=
  (List.finRange 8).find? fun n => h.neighbours[n].site != 0 && h.neighbours[n].site == site

/-- The index of the hearing entry for neighbour `n` and radio `r` (R80). -/
def Hearing.pairIndex (n : Fin 8) (r : Radio) (h : Hearing) : Option (Fin 128) :=
  findEntry (fun e => e.neighbour == n && e.radio == r) h.table

/-- The level that neighbour `n` last reported for radio `r`, if an entry is present (R87). -/
def Hearing.levelFor (n : Fin 8) (r : Radio) (h : Hearing) : Option Nat :=
  (h.pairIndex n r).bind fun j => h.table[j].map HearingEntry.level

/-- The index of the entry with the oldest received stamp, of equal stamps the lowest index (R83). -/
def Hearing.oldest (now : Time) (h : Hearing) : Option (Fin 128) :=
  (pickGreatest fun j => h.table[j].map fun e => (elapsed now e.received : Int)).map Prod.fst

/-- The index at which a pair is stored: its own entry, else the lowest free index, else the oldest entry's (R82, R83). -/
def Hearing.place (now : Time) (n : Fin 8) (r : Radio) (h : Hearing) : Option (Fin 128) :=
  match h.pairIndex n r with
  | some j => some j
  | none =>
    match lowestFree h.table with
    | some j => some j
    | none => h.oldest now

/-- The table with one pair stored, and the radios whose entries changed: the pair's, and that of a replaced entry (R82,
R83, R87). -/
def Hearing.storePair (now : Time) (age : Nat) (n : Fin 8) (pair : Radio × Nat) (h : Hearing) : Hearing × List Radio :=
  match h.place now n pair.1 with
  | some j =>
    let entry : HearingEntry :=
      { neighbour := n, radio := pair.1, level := pair.2, received := now, expiry := after now age }
    ({ h with table := h.table.set j (some entry) }, pair.1 :: (h.table[j].map HearingEntry.radio).toList)
  | none => (h, [])

/-- The pairs of a HEARD frame stored in body order, those only whose radio `kept` admits (R81). -/
def Hearing.storePairs (now : Time) (age : Nat) (n : Fin 8) (kept : Radio → Bool) (pairs : List (Radio × Nat))
    (h : Hearing) : Hearing × List Radio :=
  pairs.foldl
    (fun acc pair =>
      if kept pair.1 then
        let stored := acc.1.storePair now age n pair
        (stored.1, acc.2 ++ stored.2)
      else acc)
    (h, [])

/-- Every hearing entry of a radio removed (R85). -/
def Hearing.pruneRadio (r : Radio) (h : Hearing) : Hearing :=
  { h with table := dropEntries (fun e => e.radio == r) h.table }

/-- Every hearing entry of a neighbour removed (R86). -/
def Hearing.pruneNeighbour (n : Fin 8) (h : Hearing) : Hearing :=
  { h with table := dropEntries (fun e => e.neighbour == n) h.table }

/-- A record made LIVE, its stamp now and its silence deadline `silence` ticks on (R77). -/
def Hearing.makeLive (now : Time) (silence : Nat) (n : Fin 8) (h : Hearing) : Hearing :=
  { h with
    neighbours :=
      h.neighbours.set n
        { h.neighbours[n] with state := .live, lastFrame := some now, silence := some (after now silence) } }

/-- A record made SILENT: the deadline is removed, the stamp kept, and the neighbour's hearing entries removed (R78). -/
def Hearing.makeSilent (n : Fin 8) (h : Hearing) : Hearing :=
  { h with neighbours := h.neighbours.set n { h.neighbours[n] with state := .silent, silence := none } }.pruneNeighbour n

/-- A record as a flush leaves it: UNKNOWN, no stamp and no deadline, its configured fields kept (R90). -/
def NeighbourRecord.forget (n : NeighbourRecord) : NeighbourRecord :=
  { n with state := .unknown, lastFrame := none, silence := none }

end Sys2Proof.Machine
end

