-- ==== Sys2Proof/Machine/Evaluate.lean ====
section
/-! DEFINITION. Handover evaluation: the candidate condition of a HOMED entry and what it does to the entry's dwell deadline
and ask-ready flag (R26 to R31, R91 to R102). -/

namespace Sys2Proof.Machine

/-- The entry is in rescue: its own level is below the rescue floor (R31). -/
def State.inRescue (s : State) (e : RosterEntry) : Bool := decide (ownLevel e.f < s.par .rescueFloor)

/-- Neighbour `n` is eligible for the entry: LIVE, accept flag set, not excluded, and it reports the radio (R93). -/
def State.eligible (s : State) (e : RosterEntry) (n : Fin 8) : Bool :=
  s.hearing.neighbours[n].state == .live && s.hearing.neighbours[n].accept
    && e.exclusion.all (fun x => x.neighbour != n) && (s.hearing.levelFor n e.radio).isSome

/-- The adjusted level of an eligible neighbour: reported level plus bias trim (R26). -/
def State.adjustedLevel (s : State) (e : RosterEntry) (n : Fin 8) : Option Int :=
  if s.eligible e n then (s.hearing.levelFor n e.radio).map fun (r : Nat) => (r : Int) + s.hearing.neighbours[n].bias
  else none

/-- The best neighbour and its adjusted level: the greatest, of equal ones the lowest index (R94). -/
def State.bestNeighbour (s : State) (e : RosterEntry) : Option (Fin 8 × Int) := pickGreatest (s.adjustedLevel e)

/-- The advantage toward the best neighbour (R27). -/
def State.advantage (s : State) (e : RosterEntry) : Option Int :=
  (s.bestNeighbour e).map fun b => b.2 - ownLevel e.f

/-- The hysteresis is doubled toward `n`: `n` is the entry's origin and its guard period runs (R28). -/
def State.doubled (s : State) (e : RosterEntry) (n : Fin 8) : Bool :=
  e.arrival.any fun a => a.guardRuns && a.origin != 0 && a.origin == s.hearing.neighbours[n].site

/-- The effective hysteresis of the entry toward `n` (R28, R29). -/
def State.hysteresisToward (s : State) (e : RosterEntry) (n : Fin 8) : Nat :=
  effectiveHysteresis (s.par .hysteresis) (s.doubled e n) (s.inRescue e)

/-- Terms 4 and 5: a best neighbour exists and its advantage meets the margin (R92). -/
def State.meetsMargin (s : State) (e : RosterEntry) : Bool :=
  match s.bestNeighbour e with
  | some (n, a) => decide ((s.hysteresisToward e n : Int) ≤ a - ownLevel e.f)
  | none => false

/-- The candidate condition of a HOMED entry, its five terms in order (R92). -/
def State.candidate (s : State) (e : RosterEntry) : Bool :=
  s.port.hold == .opened
    && (!s.roster.pins.contains e.radio && !s.port.listenOnly)
    && ((e.callActive.isNone && e.emergency.isNone) || s.inRescue e)
    && s.meetsMargin e

/-- The effective dwell of the entry in ticks (R30). -/
def State.dwellFor (s : State) (e : RosterEntry) : Nat := effectiveDwell (s.par .dwell) (s.inRescue e)

/-- A HOMED entry after evaluation (R91); an entry in another state is not evaluated. -/
def State.evaluated (s : State) (e : RosterEntry) : RosterEntry :=
  if e.state ≠ .homed then e
  else if !s.candidate e then { e with dwell := none, askReady := false }
  else if e.dwell.isSome || e.askReady then e
  else { e with dwell := some (s.due (s.dwellFor e)) }

/-- The entry at index `i` changed by `f`, if there is one. -/
def State.updateEntry (i : Fin 64) (f : RosterEntry → RosterEntry) (s : State) : State :=
  s.withRoster { s.roster with entries := updateAt s.roster.entries i f }

/-- The entry at index `i` evaluated (R98). -/
def State.evalAt (i : Fin 64) (s : State) : State := s.updateEntry i s.evaluated

/-- The HOMED entries of the radios that `p` admits evaluated, in one event (R87, R98). -/
def State.evalRadios (p : Radio → Bool) (s : State) : State :=
  s.withRoster
    { s.roster with entries := mapEntries (fun e => if p e.radio then s.evaluated e else e) s.roster.entries }

/-- Every HOMED entry evaluated, in one event (R99). -/
def State.evalAll (s : State) : State :=
  s.withRoster { s.roster with entries := mapEntries s.evaluated s.roster.entries }

end Sys2Proof.Machine
end

