-- ==== Sys2Proof/Machine/SteerLayer.lean ====
section
/-! DEFINITION. The Steer Queue's shared operations: orders made, presented, repeated and removed (R137 to R143). -/

namespace Sys2Proof.Machine

/-- The code of an order kind on the steer port (R140). -/
def OrderKind.code : OrderKind → Byte
  | .move => 1
  | .refuse => 2

/-- The six bytes presented for an order: kind, radio ID, target channel code, target site (R140). -/
def SteerOrder.bytes (o : SteerOrder) : List Byte := o.kind.code :: radioBytes o.radio ++ [o.channel, o.site]

/-- The queue with its orders replaced, and its presentation following the head: with no order STR_RDY is deasserted; a head
other than the presented one is presented; the presented one is presented again only when `again` is set (R140). -/
def SteerQueue.present (again : Bool) (orders : List SteerOrder) (q : SteerQueue) : SteerQueue :=
  match orders with
  | [] => { q with orders := [], strRdy := false, strDat := [] }
  | head :: rest =>
    if !again && q.strRdy && q.strDat == head.bytes then { q with orders := head :: rest }
    else
      { q with orders := head :: rest, strRdy := true, strDat := head.bytes, presentations := q.presentations + 1 }

/-- An order for the radio is held. -/
def SteerQueue.holds (r : Radio) (q : SteerQueue) : Bool := q.orders.any fun o => o.radio == r

/-- The queue is full (R137). -/
def SteerQueue.isFull (q : SteerQueue) : Bool := decide (Config.steerQueueSize ≤ q.orders.length)

/-- An order admitted at the tail (R138, R139). -/
def SteerQueue.admitOrder (o : SteerOrder) (q : SteerQueue) : SteerQueue :=
  { q with admission := q.admission ++ [o.radio] }.present false (q.orders ++ [o])

/-- The order for a radio removed, whatever its kind; the orders behind it close up (R142, R143). -/
def SteerQueue.remove (r : Radio) (q : SteerQueue) : SteerQueue :=
  if q.holds r then
    { q with admission := q.admission.filter fun x => x != r }.present false (q.orders.filter fun o => o.radio != r)
  else q

/-- The REFUSE order for a radio removed, if that is what is held (R143). -/
def SteerQueue.removeRefuse (r : Radio) (q : SteerQueue) : SteerQueue :=
  if q.orders.any fun o => o.radio == r && o.kind == .refuse then q.remove r else q

/-- The radio of the REFUSE order newest by admission (R138). -/
def SteerQueue.newestRefuse (q : SteerQueue) : Option Radio :=
  q.admission.reverse.find? fun r => q.orders.any fun o => o.radio == r && o.kind == .refuse

/-- The offer of a MOVE displaces a REFUSE (R138). -/
def SteerQueue.displaces (q : SteerQueue) : Bool := q.isFull && q.newestRefuse.isSome

/-- A MOVE offered: admitted at the tail, the newest REFUSE being removed from a full queue (R138). -/
def SteerQueue.offerMove (o : SteerOrder) (q : SteerQueue) : SteerQueue :=
  match if q.isFull then q.newestRefuse else none with
  | some r =>
    { q with admission := (q.admission.filter fun x => x != r) ++ [o.radio] }.present false
      ((q.orders.filter fun x : SteerOrder => x.radio != r) ++ [o])
  | none => q.admitOrder o

/-- The offer of a REFUSE for the radio is discarded for want of room (R139). -/
def SteerQueue.dropsRefuse (r : Radio) (q : SteerQueue) : Bool := !q.holds r && q.isFull

/-- A REFUSE offered: nothing where an order for the radio is held or the queue is full, else admitted at the tail (R139). -/
def SteerQueue.offerRefuse (o : SteerOrder) (q : SteerQueue) : SteerQueue :=
  if q.holds o.radio || q.isFull then q else q.admitOrder o

/-- A strobe on STR_TAKEN: while STR_RDY is asserted the head loses one repeat and is removed at 0 or moved to the tail, and
the new head is presented; else nothing (R141). -/
def SteerQueue.strobe (q : SteerQueue) : SteerQueue :=
  match q.orders with
  | [] => q
  | head :: rest =>
    if !q.strRdy then q
    else if head.repeats - 1 = 0 then
      { q with admission := q.admission.filter fun x => x != head.radio }.present true rest
    else q.present true (rest ++ [{ head with repeats := head.repeats - 1 }])

/-- The order for a radio removed from the steer queue (R142). -/
def State.removeOrder (r : Radio) (s : State) : State := s.withSteer (s.steer.remove r)

/-- A REFUSE for a radio removed when an entry is created for it (R143). -/
def State.removeRefuse (r : Radio) (s : State) : State := s.withSteer (s.steer.removeRefuse r)

/-- A MOVE for a radio toward neighbour `n`, with full repeats (R117, R138); a displacement is counted (R145). -/
def State.offerMove (r : Radio) (n : Fin 8) (s : State) : State :=
  let target := s.hearing.neighbours[n]
  let o : SteerOrder :=
    { kind := .move, radio := r, channel := target.channel, site := target.site, repeats := s.par .steerRepeats }
  (s.withSteer (s.steer.offerMove o)).bumpIf s.steer.displaces .txDropped

/-- The target of a REFUSE: the channel code and site of the neighbour through which the radio is a stray, if that record
is used, LIVE and has its accept flag set, and otherwise 0 and 0 (R139). -/
def State.refuseTarget (r : Radio) (s : State) : Byte × Byte :=
  match findEntry (fun e : StrayEntry => e.radio == r) s.strays.entries with
  | some j =>
    match s.strays.entries[j] with
    | some e =>
      let n := s.hearing.neighbours[e.neighbour]
      if n.site != 0 && n.state == .live && n.accept then (n.channel, n.site) else (0, 0)
    | none => (0, 0)
  | none => (0, 0)

/-- A REFUSE for a radio formed and offered (R139); a discard for want of room is counted (R145). -/
def State.offerRefuse (r : Radio) (s : State) : State :=
  let target := s.refuseTarget r
  let o : SteerOrder :=
    { kind := .refuse, radio := r, channel := target.1, site := target.2, repeats := s.par .steerRepeats }
  (s.withSteer (s.steer.offerRefuse o)).bumpIf (s.steer.dropsRefuse r) .txDropped

end Sys2Proof.Machine
end

