-- ==== Sys2Proof/Machine/StrayLayer.lean ====
section
/-! DEFINITION. The Stray Tracker's shared operations: the stray list (R60 to R65) and the composition of HEARD notices (R66
to R71). -/

namespace Sys2Proof.Machine

/-- The index of a radio's stray entry (R60). -/
def StrayTracker.indexOf (r : Radio) (t : StrayTracker) : Option (Fin 32) :=
  findEntry (fun e => e.radio == r) t.entries

/-- A radio's stray entry (R60). -/
def StrayTracker.entryOf (r : Radio) (t : StrayTracker) : Option StrayEntry :=
  (t.indexOf r).bind fun j => t.entries[j]

/-- A radio's stray entry removed (R65). -/
def StrayTracker.remove (r : Radio) (t : StrayTracker) : StrayTracker :=
  { t with entries := dropEntries (fun e => e.radio == r) t.entries }

/-- The parameters and the time that an observation of a stray reads. -/
structure StrayReads where
  now : Time
  shift : Nat
  fadeLimit : Nat
  ageTicks : Nat

/-- The entry that an observation creates: seeded, its reported flag clear (R62). -/
def newStray (x : StrayReads) (o : Observation) : StrayEntry :=
  { radio := o.radio, f := seedF o.level o.quality, lastHeard := x.now, ageDeadline := after x.now x.ageTicks,
    neighbour := o.neighbour, reported := false }

/-- The entry after a further observation: F stepped, stamp and age deadline renewed, the observation's neighbour index,
reported flag clear (R61). -/
def updatedStray (x : StrayReads) (o : Observation) (e : StrayEntry) : StrayEntry :=
  { e with
    f := observeF x.shift x.fadeLimit e.f o.level o.quality
    lastHeard := x.now
    ageDeadline := after x.now x.ageTicks
    neighbour := o.neighbour
    reported := false }

/-- The candidate for replacement: the lowest own level, of those the oldest stamp, of those the lowest index. The score is
lexicographic, for an elapsed time is below 2^32 (R63). -/
def StrayTracker.weakest (now : Time) (t : StrayTracker) : Option (Fin 32) :=
  (pickGreatest fun j =>
    t.entries[j].map fun e => (elapsed now e.lastHeard : Int) - (ownLevel e.f : Int) * 2 ^ 32).map Prod.fst

/-- A stray replaced by a stronger newcomer, or the newcomer discarded (R63). -/
def StrayTracker.replaceWeakest (x : StrayReads) (o : Observation) (t : StrayTracker) : StrayTracker :=
  match t.weakest x.now with
  | some j =>
    if t.entries[j].any fun e => decide (ownLevel e.f < effectiveLevel o.level o.quality) then
      { t with entries := t.entries.set j (some (newStray x o)) }
    else t
  | none => t

/-- An observation that reaches the Stray Tracker, whatever its kind (R60): update, create or replace (R61 to R63). -/
def StrayTracker.observe (x : StrayReads) (o : Observation) (t : StrayTracker) : StrayTracker :=
  match t.indexOf o.radio with
  | some j => { t with entries := updateAt t.entries j (updatedStray x o) }
  | none =>
    match lowestFree t.entries with
    | some j => { t with entries := t.entries.set j (some (newStray x o)) }
    | none => t.replaceWeakest x o

/-- What an observation of a stray reads from the state. -/
def State.strayReads (s : State) : StrayReads :=
  { now := s.now, shift := s.par .filterShift, fadeLimit := s.par .fadeLimit, ageTicks := s.par .strayAge * 100 }

/-- An observation taken by the Stray Tracker. -/
def State.observeStray (o : Observation) (s : State) : State := s.withStrays (s.strays.observe s.strayReads o)

/-! ### HEARD notices -/

/-- An entry qualifies for a HEARD notice: own level at or above the report floor, reported flag clear (R68). -/
def qualifies (floor : Nat) (e : StrayEntry) : Bool := decide (floor ≤ ownLevel e.f) && !e.reported

/-- The walk once around the stray list from the report cursor (R68). -/
def StrayTracker.walk (t : StrayTracker) : List (Fin 32) := (List.finRange 32).map fun k => t.cursor + k

/-- The selection: the first six qualifying entries of the walk (R68). -/
def StrayTracker.selection (floor : Nat) (t : StrayTracker) : List (Fin 32) :=
  (t.walk.filter fun j => t.entries[j].any (qualifies floor)).take Config.heardPairs

/-- The pairs of a notice: radio and own level of each taken entry, in selection order (R69). -/
def StrayTracker.pairs (taken : List (Fin 32)) (t : StrayTracker) : List (Radio × Nat) :=
  taken.filterMap fun j => t.entries[j].map fun e => (e.radio, ownLevel e.f)

/-- A notice accepted: the reported flag of each taken entry set, the cursor after the last taken (R69). -/
def StrayTracker.markReported (taken : List (Fin 32)) (t : StrayTracker) : StrayTracker :=
  { t with
    entries := taken.foldl (fun v j => updateAt v j fun e => { e with reported := true }) t.entries
    cursor := (taken.getLast?.map (· + 1)).getD t.cursor }

/-- No frame has been sent for the presence period (R70); a last-sent stamp marked old meets the test (R183). -/
def State.presenceDue (s : State) : Bool :=
  match s.link.lastSent with
  | none => true
  | some m => m.old || decide (s.par .presencePeriod * 100 ≤ elapsed s.now m.time)

/-- The three conditions under which an expiry of the hearing period may compose (R67). -/
def State.mayCompose (s : State) : Bool :=
  s.running && !s.port.listenOnly && !s.link.tx.any fun x => x.frame.isHeard

/-- A HEARD notice of a selection composed and offered; reported flags and cursor follow its acceptance (R69). -/
def State.composeHeard (taken : List (Fin 32)) (s : State) : State :=
  let offered := s.offer 0 .heard (heardBody (s.strays.pairs taken))
  if s.accepts .heard then offered.withStrays (s.strays.markReported taken) else offered

/-- What an expiry of the hearing period composes: a HEARD notice, a presence notice, or nothing (R67, R69, R70). -/
def State.composeNotice (s : State) : State :=
  let taken := s.strays.selection (s.par .reportFloor)
  if !s.mayCompose then s
  else if !taken.isEmpty then s.composeHeard taken
  else if s.presenceDue then s.offer 0 .heard (heardBody [])
  else s

end Sys2Proof.Machine
end

