-- ==== Sys2Proof/Machine/RosterLayer.lean ====
section
/-! DEFINITION. Operations that the Roster Engine and the Negotiator share: entries created, refreshed, removed and returned
to HOMED (R34 to R57), departures opened and the arbiter over them (R103 to R113), the history pair (R134). -/

namespace Sys2Proof.Machine

/-! ### Finding and counting -/

/-- The roster index of a radio (R34). -/
def State.rosterIndex (r : Radio) (s : State) : Option (Fin 64) :=
  findEntry (fun e => e.radio == r) s.roster.entries

/-- A radio's roster entry. -/
def State.rosterEntry (r : Radio) (s : State) : Option RosterEntry :=
  (s.rosterIndex r).bind fun i => s.roster.entries[i]

/-- Occupancy: the entries in use, in any state (R34). -/
def State.occupancy (s : State) : Nat := heldCount s.roster.entries

/-- Occupancy allows a creation: below 64 for an emergency one, below 60 for any other (R34). -/
def State.mayCreate (emergency : Bool) (s : State) : Bool :=
  decide (s.occupancy < if emergency then Config.emergencyLimit else Config.ordinaryLimit)

/-- The position of a radio's departure record (R111). -/
def State.departureIndex (r : Radio) (s : State) : Option (Fin 4) :=
  findEntry (fun d => d.radio == r) s.nego.departures

/-- The site number of the target of a radio's departure record. -/
def State.targetSite (r : Radio) (s : State) : Option Byte :=
  (s.departureIndex r).bind fun p => s.nego.departures[p].map fun d => s.hearing.neighbours[d.target].site

/-! ### Creation and removal -/

/-- An entry put at index `i`; in the same event the radio's stray entry and REFUSE order are removed (R36, R49, R65,
R143). -/
def State.createEntry (i : Fin 64) (e : RosterEntry) (s : State) : State :=
  ((s.withRoster { s.roster with entries := s.roster.entries.set i (some e) }).withStrays
    (s.strays.remove e.radio)).removeRefuse e.radio

/-- The departure record of a radio removed (R48). -/
def State.dropDeparture (r : Radio) (s : State) : State :=
  s.withNego { s.nego with departures := dropEntries (fun d => d.radio == r) s.nego.departures }

/-- The entry at index `i` removed: its position freed, the radio's hearing entries pruned, and, from ASKING or LEAVING, its
departure record, and from LEAVING its order (R48, R85). -/
def State.removeEntry (i : Fin 64) (s : State) : State :=
  match s.roster.entries[i] with
  | none => s
  | some e =>
    let bare :=
      (s.withRoster { s.roster with entries := s.roster.entries.set i none }).withHearing
        (s.hearing.pruneRadio e.radio)
    match e.state with
    | .homed => bare
    | .expected => bare
    | .asking => bare.dropDeparture e.radio
    | .leaving => (bare.dropDeparture e.radio).removeOrder e.radio

/-- A record of the history pair made, the former last one becoming the previous one (R134). -/
def State.record (r : Radio) (toSite : Byte) (outcome : Departed) (s : State) : State :=
  s.withNego
    { s.nego with
      last := some { radio := r, toSite := toSite, stamp := s.now, outcome := outcome }
      previous := s.nego.last }

/-- A HOMED announcement of the entry, to all sites (R129). -/
def State.announce (e : RosterEntry) (s : State) : State := s.offer 0 .homed (homedBody e)

/-! ### Effects of an own-path observation on an entry's fields -/

/-- The kinds that mark the handset as in a call (R40). -/
def ObsKind.opensCall : ObsKind → Bool
  | .registration => false
  | .header => true
  | .voice => true
  | .terminator => true
  | .data => false
  | .emergency => true

/-- The lost deadline set at a hearing or a return: now + lost time (R36, R38, R53). -/
def State.lostDue (s : State) : Time := s.due (s.par .lostTime * 100)

/-- The call-active deadline after an own-path observation of a kind (R40). -/
def State.callAfter (s : State) (kind : ObsKind) (old : Option Time) : Option Time :=
  if kind.opensCall then some (s.due (s.par .callHang * 10)) else old

/-- The emergency clear deadline after an own-path observation of a kind (R41). -/
def State.emergencyAfter (s : State) (kind : ObsKind) (old : Option Time) : Option Time :=
  if kind = .emergency then some (s.due (s.par .emergencyClear * 100)) else old

/-- The F of a record after an observation (R19, R20, R22). -/
def State.observedF (s : State) (f : Nat) (o : Observation) : Nat :=
  observeF (s.par .filterShift) (s.par .fadeLimit) f o.level o.quality

/-- The arrival record set now with an origin: a guard period runs when neither the origin nor the ping-pong guard is 0
(R28, R36). -/
def State.arrivalNow (s : State) (origin : Byte) : Arrival :=
  { origin := origin, stamp := s.now, guardRuns := origin != 0 && s.par .pingPongGuard != 0 }

/-- An entry in HOMED, ASKING or LEAVING refreshed by an own-path observation (R38 to R41). -/
def State.refreshed (s : State) (o : Observation) (e : RosterEntry) : RosterEntry :=
  { e with
    f := s.observedF e.f o
    lastHeard := s.now
    lostDeadline := if e.state = .homed then some s.lostDue else e.lostDeadline
    away := none
    count := if o.kind = .registration then o.count else e.count
    callActive := s.callAfter o.kind e.callActive
    emergency := s.emergencyAfter o.kind e.emergency }

/-- The entry that a homing creates (R36). -/
def State.newHomed (s : State) (o : Observation) : RosterEntry :=
  { radio := o.radio
    state := .homed
    f := seedF o.level o.quality
    lastHeard := s.now
    lostDeadline := some s.lostDue
    count := if o.kind = .registration then o.count else none
    arrival := some (s.arrivalNow (if o.kind = .registration then o.origin else 0))
    emergency := s.emergencyAfter o.kind none
    callActive := s.callAfter o.kind none
    away := none
    dwell := none
    askReady := false
    exclusion := none
    heardWhileLeaving := false
    reservation := none }

/-- An EXPECTED entry made HOMED by the handset's arrival (R43). -/
def State.arrived (s : State) (o : Observation) (e : RosterEntry) : RosterEntry :=
  { e with
    state := .homed
    f := s.observedF e.f o
    lastHeard := s.now
    lostDeadline := some s.lostDue
    count := if o.kind = .registration then o.count else e.count
    arrival :=
      some (s.arrivalNow
        (if o.kind = .registration ∧ o.origin ≠ 0 then o.origin
          else (e.reservation.map Reservation.fromSite).getD 0))
    emergency := s.emergencyAfter o.kind e.emergency
    callActive := s.callAfter o.kind e.callActive
    away := none
    dwell := none
    askReady := false
    exclusion := none
    heardWhileLeaving := false
    reservation := none }

/-- The EXPECTED entry that an accepted ASK creates (R49). -/
def State.newExpected (s : State) (r : Radio) (f : Nat) (fromSite sequence : Byte) : RosterEntry :=
  { radio := r
    state := .expected
    f := f
    lastHeard := s.now
    lostDeadline := none
    count := none
    arrival := none
    emergency := none
    callActive := none
    away := none
    dwell := none
    askReady := false
    exclusion := none
    heardWhileLeaving := false
    reservation :=
      some { fromSite := fromSite, sequence := sequence, deadline := s.due (s.par .arrivalTimeout * 10) } }

/-! ### Departures -/

/-- A HOMED entry made ASKING (R52). -/
def RosterEntry.toAsking (e : RosterEntry) : RosterEntry :=
  { e with state := .asking, lostDeadline := none, dwell := none, askReady := false }

/-- An ASKING entry made LEAVING (R54). -/
def RosterEntry.toLeaving (e : RosterEntry) : RosterEntry := { e with state := .leaving, heardWhileLeaving := false }

/-- An entry returned to HOMED from a departure toward `target` (R53). -/
def State.returned (s : State) (target : Fin 8) (e : RosterEntry) : RosterEntry :=
  { e with
    state := .homed
    lostDeadline := some s.lostDue
    exclusion := some { neighbour := target, deadline := s.due (s.par .declineHold * 100) }
    heardWhileLeaving := false
    dwell := none
    askReady := false }

/-- The ASK of a departure record composed and offered, to the target's site (R113 to R115). -/
def State.offerAsk (d : Departure) (s : State) : State :=
  s.offer s.hearing.neighbours[d.target].site .ask (askBody d)

/-- The record that opening a departure makes for entry `e` at index `i` toward neighbour `n` (R112, R113). -/
def State.newDeparture (s : State) (i : Fin 64) (e : RosterEntry) (n : Fin 8) : Departure :=
  { radio := e.radio
    rosterIndex := i
    target := n
    sequence := s.nego.sequence + 1
    phase := .asking
    attempt := 1
    deadline := s.due (s.par .askTimeout * 10)
    ownLevel := ownLevel e.f
    neighbourLevel := (s.hearing.levelFor n e.radio).getD 0
    emergency := e.emergency.isSome
    rescue := s.inRescue e }

/-- A departure opened for the entry at index `i` toward neighbour `n`, in the lowest free position of the departure list
(R113). -/
def State.openDeparture (i : Fin 64) (n : Fin 8) (s : State) : State :=
  match s.roster.entries[i], lowestFree s.nego.departures with
  | some e, some p =>
    let d := s.newDeparture i e n
    (((s.withNego { s.nego with departures := s.nego.departures.set p (some d), sequence := s.nego.sequence + 1 }).updateEntry
      i RosterEntry.toAsking).offerAsk d).bump .asksSent
  | _, _ => s

/-- The ask-ready entry that the arbiter takes: the greatest advantage, of equal ones the lowest roster index (R106). -/
def State.arbiterChoice (s : State) : Option (Fin 64) :=
  (pickGreatest fun i =>
    s.roster.entries[i].bind fun e => if e.state = .homed ∧ e.askReady then s.advantage e else none).map Prod.fst

/-- The arbiter over the departure list, taken when a record has been removed (R106). -/
def State.arbiter (s : State) : State :=
  match s.arbiterChoice with
  | some i =>
    match s.roster.entries[i].bind s.bestNeighbour with
    | some (n, _) => s.openDeparture i n
    | none => s
  | none => s

/-- The departure in `d` ends without the handset leaving: the record is removed, from LEAVING the order too, and the entry
returns to HOMED with an exclusion and is evaluated (R53). The arbiter is the caller's, after its counting. -/
def State.revert (d : Departure) (s : State) : State :=
  let unrecorded := s.dropDeparture d.radio
  let unsteered := if d.phase = .leaving then unrecorded.removeOrder d.radio else unrecorded
  (unsteered.updateEntry d.rosterIndex (s.returned d.target)).evalAt d.rosterIndex

/-- The handset is gone: the entry at index `i` removed, with the radio's departure record and order, a history record made,
and the arbiter taken if a departure record was removed (R48, R106, R122, R124, R132, R134). -/
def State.depart (i : Fin 64) (r : Radio) (toSite : Byte) (outcome : Departed) (s : State) : State :=
  let hadRecord := (s.departureIndex r).isSome
  let gone := (((s.removeEntry i).dropDeparture r).removeOrder r).record r toSite outcome
  if hadRecord then gone.arbiter else gone

/-- The leave deadline of the record `d` reached: back to HOMED if the handset was heard while leaving, else gone as
UNCONFIRMED (R55, R122). -/
def State.leaveEnds (d : Departure) (s : State) : State :=
  if s.roster.entries[d.rosterIndex].any RosterEntry.heardWhileLeaving then
    ((s.revert d).bump .steerFailed).arbiter
  else s.depart d.rosterIndex d.radio s.hearing.neighbours[d.target].site .unconfirmed

end Sys2Proof.Machine
end

