-- ==== Sys2Proof/Machine/DepartureEvents.lean ====
section
/-! DEFINITION. The deadlines of departure records: ANSWER_DEADLINE and LEAVE_DEADLINE (R115, R116, R122). -/

namespace Sys2Proof.Machine

/-- The ASK of the record `d` at position `p` resent: one attempt more, a new answer deadline, the same sequence and body
(R115). -/
def State.resendAsk (p : Fin 4) (d : Departure) (s : State) : State :=
  let again := { d with attempt := d.attempt + 1, deadline := s.due (s.par .askTimeout * 10) }
  (s.withNego { s.nego with departures := s.nego.departures.set p (some again) }).offerAsk again

/-- The departure in `d` timed out (R116). -/
def State.askTimesOut (d : Departure) (s : State) : State := ((s.revert d).bump .asksTimedOut).arbiter

/-- ANSWER_DEADLINE: resend while attempts remain, else the departure has timed out (R115, R116). -/
def execAnswerDeadline (p : Fin 4) (s : State) : Host.Outcome State Fault Refusal :=
  serve
    (fun s =>
      match s.nego.departures[p] with
      | some d =>
        if d.phase == .asking && d.deadline == s.now then
          if d.attempt < s.par .askAttempts then s.resendAsk p d else s.askTimesOut d
        else s
      | none => s)
    s

/-- LEAVE_DEADLINE: the entry returns to HOMED if it was heard while leaving, else it is gone as UNCONFIRMED (R122). -/
def execLeaveDeadline (p : Fin 4) (s : State) : Host.Outcome State Fault Refusal :=
  serve
    (fun s =>
      match s.nego.departures[p] with
      | some d => if d.phase == .leaving && d.deadline == s.now then s.leaveEnds d else s
      | none => s)
    s

end Sys2Proof.Machine
end

