-- ==== Sys2Proof/Machine/HearingEvents.lean ====
section
/-! DEFINITION. The deadlines of the Hearing Table: SILENCE_DEADLINE and HEARING_EXPIRY (R78, R84). -/

namespace Sys2Proof.Machine

/-- SILENCE_DEADLINE: the LIVE neighbour becomes SILENT, its hearing entries are removed, and every HOMED entry is evaluated
(R78, R79, R86, R99). -/
def execSilenceDeadline (n : Fin 8) (s : State) : Host.Outcome State Fault Refusal :=
  serve
    (fun s =>
      if s.hearing.neighbours[n].state == .live && reached s.now s.hearing.neighbours[n].silence then
        (s.withHearing (s.hearing.makeSilent n)).evalAll
      else s)
    s

/-- HEARING_EXPIRY: the hearing entry is removed and the radio's HOMED entry evaluated (R84, R87). -/
def execHearingExpiry (j : Fin 128) (s : State) : Host.Outcome State Fault Refusal :=
  serve
    (fun s =>
      match s.hearing.table[j] with
      | some e =>
        if e.expiry == s.now then
          (s.withHearing { s.hearing with table := s.hearing.table.set j none }).evalRadios fun r => r == e.radio
        else s
      | none => s)
    s

end Sys2Proof.Machine
end

