-- ==== Sys2Proof/Machine/Negotiate.lean ====
section
/-! DEFINITION. What the Negotiator and the Hearing Table do with a dispatched frame: TAKE, DECLINE, ASK, HOMED and HEARD
(R77, R81, R117 to R132). -/

namespace Sys2Proof.Machine

/-! ### Answers to this site's ASKs -/

/-- The position of the ASKING record that an answer matches: its radio, its sequence, and its target's site as the source
(R117). -/
def State.matchingRecord (source : Byte) (r : Radio) (sequence : Byte) (s : State) : Option (Fin 4) :=
  findEntry
    (fun d =>
      d.radio == r && d.phase == .asking && d.sequence == sequence && s.hearing.neighbours[d.target].site == source)
    s.nego.departures

/-- A matching TAKE accepted for the record `d` at position `p`, with hold time `h` (R54, R117). A leave deadline equal to
now is reached in this event, after its other effects (R182). -/
def State.acceptTake (p : Fin 4) (d : Departure) (h : Nat) (s : State) : State :=
  let ticks := (h + s.par .leaveMargin) * 10
  let leaving := { d with phase := .leaving, deadline := s.due ticks }
  let taken :=
    ((s.withNego { s.nego with departures := s.nego.departures.set p (some leaving) }).updateEntry d.rosterIndex
      RosterEntry.toLeaving).offerMove d.radio d.target
  if ticks = 0 then taken.leaveEnds leaving else taken

/-- A TAKE dispatched: accepted where it matches, else ignored (R117, R118). -/
def State.receiveTake (f : LinkFrame) (s : State) : State :=
  match s.matchingRecord f.source (radioAt f.body 0) (byteAt f.body 3) with
  | some p =>
    match s.nego.departures[p] with
    | some d => s.acceptTake p d (byteAt f.body 4).toNat
    | none => s
  | none => s

/-- A DECLINE dispatched: where it matches, the entry returns to HOMED with an exclusion; else ignored (R119). -/
def State.receiveDecline (f : LinkFrame) (s : State) : State :=
  match s.matchingRecord f.source (radioAt f.body 0) (byteAt f.body 3) with
  | some p =>
    match s.nego.departures[p] with
    | some d => ((s.revert d).bump .asksDeclined).arbiter
    | none => s
  | none => s

/-! ### Answering a neighbour's ASK -/

/-- The cases of R125, by what they answer. -/
inductive AskAnswer where
  /-- case 2: listen-only, nothing -/
  | unanswered
  /-- cases 1, 3, 5, 6 and 7: DECLINE with its reason -/
  | decline (reason : Byte)
  /-- case 4: the reservation at this index renewed and TAKE again -/
  | renew (i : Fin 64)
  /-- case 8: a reservation made at this index from the stray entry, and TAKE -/
  | accept (i : Fin 64) (stray : StrayEntry)
  deriving DecidableEq, Repr

/-- The entry is the reservation that an ASK from `source` with `sequence` made (case 4 of R125). -/
def RosterEntry.reservedFor (e : RosterEntry) (source sequence : Byte) : Bool :=
  e.state == .expected && e.reservation.any fun x => x.fromSite == source && x.sequence == sequence

/-- The answer to an ASK: the first case of R125 that holds. -/
def State.askAnswer (source : Byte) (r : Radio) (sequence : Byte) (emergency : Bool) (s : State) : AskAnswer :=
  if (s.hearing.neighbourOf source).isNone then .decline 5
  else if s.port.listenOnly then .unanswered
  else if s.port.hold = .closed then .decline 1
  else
    match s.rosterIndex r with
    | some i =>
      if s.roster.entries[i].any fun e => e.reservedFor source sequence then .renew i else .decline 2
    | none =>
      match s.strays.entryOf r with
      | none => .decline 3
      | some stray =>
        if !s.mayCreate emergency then .decline 4
        else
          match lowestFree s.roster.entries with
          | some i => .accept i stray
          | none => .decline 4

/-- A TAKE offered to the asking site, its hold time the configured arrival timeout (R126, R127). -/
def State.offerTake (source : Byte) (r : Radio) (sequence : Byte) (s : State) : State :=
  s.offer source .take (answerBody r sequence (numByte (s.par .arrivalTimeout)))

/-- A reservation renewed (R50). -/
def State.renewed (s : State) (e : RosterEntry) : RosterEntry :=
  { e with
    reservation := e.reservation.map fun x => { x with deadline := s.due (s.par .arrivalTimeout * 10) } }

/-- An ASK dispatched and answered (R125 to R128). -/
def State.receiveAsk (f : LinkFrame) (s : State) : State :=
  let r := radioAt f.body 0
  let sequence := byteAt f.body 3
  match s.askAnswer f.source r sequence ((byteAt f.body 6).getLsbD 0) with
  | .unanswered => s
  | .decline reason => s.offer f.source .decline (answerBody r sequence reason)
  | .renew i => (s.updateEntry i s.renewed).offerTake f.source r sequence
  | .accept i stray =>
    ((s.createEntry i (s.newExpected r stray.f f.source sequence)).offerTake f.source r sequence).bump .takesGiven

/-! ### HOMED announcements received -/

/-- The claim with count `k` is newer than the one with count `c` (R131). -/
def claimNewer (k c : Option (BitVec 4)) : Bool :=
  match k, c with
  | some _, none => true
  | some k, some c => decide (1 ≤ (k - c).toNat) && decide ((k - c).toNat ≤ 7)
  | none, _ => false

/-- The conflict test: this site keeps the handset (R131). -/
def keepsHandset (own other : Byte) (k c : Option (BitVec 4)) : Bool :=
  claimNewer k c || (!claimNewer c k && decide (own.toNat < other.toNat))

/-- The outcome that a yield gives the history pair (R132). -/
def yieldOutcome (e : RosterEntry) : Departed :=
  if e.state = .homed ∧ e.count.isSome then .superseded else .elsewhere

/-- The conflict test applied to the entry `e` at index `i` against a HOMED from `source` with count `c`: re-announce, or
yield (R131, R132). -/
def State.conflict (i : Fin 64) (e : RosterEntry) (source : Byte) (c : Option (BitVec 4)) (s : State) : State :=
  if keepsHandset s.ownSite source e.count c then s.announce e
  else s.depart i e.radio source (yieldOutcome e)

/-- A HOMED dispatched, by the state of the radio's entry: a reservation is removed, a departure confirmed, or the conflict
test taken (R56, R57, R124, R130). -/
def State.receiveHomed (f : LinkFrame) (s : State) : State :=
  let r := radioAt f.body 0
  match s.rosterIndex r with
  | none => s
  | some i =>
    match s.roster.entries[i] with
    | none => s
    | some e =>
      match e.state with
      | .expected => s.removeEntry i
      | .homed => s.conflict i e f.source (countOfByte (byteAt f.body 3))
      | .asking => s.conflict i e f.source (countOfByte (byteAt f.body 3))
      | .leaving =>
        if s.targetSite r = some f.source then (s.bump .handoversConfirmed).depart i r f.source .confirmed
        else s.conflict i e f.source (countOfByte (byteAt f.body 3))

/-! ### Liveness and HEARD frames -/

/-- The radio has a roster entry in HOMED, ASKING or LEAVING, so that its pairs are stored (R81). -/
def State.keepsReports (s : State) (r : Radio) : Bool := (s.rosterEntry r).any fun e => e.state != .expected

/-- Liveness of neighbour `n` updated by a dispatched frame (R77). -/
def State.hearFrom (n : Fin 8) (s : State) : State :=
  s.withHearing (s.hearing.makeLive s.now (s.par .silenceTime * 100) n)

/-- A HEARD frame from neighbour `n`, already made LIVE, its pairs stored and the entries concerned evaluated once: every
HOMED entry where `all` is set (the neighbour has changed state), else those of the radios whose hearing entries changed
(R79, R81, R87, R99, R100). -/
def State.receiveHeard (n : Fin 8) (all : Bool) (body : List Byte) (s : State) : State :=
  let stored :=
    s.hearing.storePairs s.now (s.par .hearingMaxAge * 100) n s.keepsReports (heardPairs body)
  (s.withHearing stored.1).evalRadios fun r => all || stored.2.contains r

/-- A frame of another kind handed to the Negotiator (R154, step 5). -/
def State.negotiate (f : LinkFrame) (s : State) : State :=
  match f.kind with
  | .heard => s
  | .ask => s.receiveAsk f
  | .take => s.receiveTake f
  | .decline => s.receiveDecline f
  | .homed => s.receiveHomed f

/-- The frame is addressed to this site or to all sites (R154, step 3). -/
def State.addressed (s : State) (f : LinkFrame) : Bool := f.dest == 0 || f.dest == s.ownSite

/-- A frame, already taken from the queue, dispatched when its source is neighbour `n` (R77, R154). -/
def State.dispatchNeighbour (n : Fin 8) (f : LinkFrame) (s : State) : State :=
  let changed := s.hearing.neighbours[n].state != .live
  let heardFrom := s.hearFrom n
  if f.kind = .heard ∧ s.addressed f then heardFrom.receiveHeard n changed f.body
  else
    let evaluated := if changed then heardFrom.evalAll else heardFrom
    if s.addressed f then evaluated.negotiate f else evaluated

/-- A frame, already taken from the queue, dispatched when its source is no configured neighbour (R77, R154). -/
def State.dispatchStranger (f : LinkFrame) (s : State) : State :=
  if !s.addressed f then s
  else if f.kind = .heard then s.bump .linkDiscarded
  else s.negotiate f

end Sys2Proof.Machine
end

