-- ==== Sys2Proof/Machine/LinkEvents.lean ====
section
/-! DEFINITION. The site link: IDLE_GAP_DEADLINE, BACKOFF_END, SPACING_END, WINDOW_END, CARRIER_ONSET, CARRIER_FALL, DISPATCH
and SENT_REPORT (R150 to R166). -/

namespace Sys2Proof.Machine

/-- IDLE_GAP_DEADLINE: in DEFER, site time has reached the quiet-since stamp + idle gap, and the transmitter enters BACKOFF
(R160). -/
def execIdleGapDeadline (s : State) : Host.Outcome State Fault Refusal :=
  serve
    (fun s =>
      match s.link.txState, s.link.quietSince with
      | .defer held, some m =>
        if s.now == after m.time (s.par .idleGap) then s.withLink (s.link.idleGapEnd held) else s
      | _, _ => s)
    s

/-- BACKOFF_END: the backoff count has reached 0 and the head frame is keyed (R161). -/
def execBackoffEnd (s : State) : Host.Outcome State Fault Refusal :=
  serve (fun s => if s.link.txState = .backoff 0 then s.withLink s.link.key else s) s

/-- SPACING_END: SPACING ends at its deadline (R162). -/
def execSpacingEnd (s : State) : Host.Outcome State Fault Refusal :=
  serve
    (fun s =>
      match s.link.txState with
      | .spacing deadline =>
        if deadline = s.now then s.withLink (s.link.endSpacing s.now (s.par .idleGap)) else s
      | _ => s)
    s

/-- W at a window end: doubled at the load threshold, halved below half of it, within 4 to 64 (R166). -/
def nextWindow (threshold onsets w : Nat) : Nat :=
  if threshold ≤ onsets then (if w = 64 then w else w * 2)
  else if onsets < threshold / 2 then (if w = 4 then w else w / 2)
  else w

/-- WINDOW_END: W is adjusted, the onset count restarts, the window deadline is advanced from the one just reached (R166). -/
def execWindowEnd (s : State) : Host.Outcome State Fault Refusal :=
  serve
    (fun s =>
      if reached s.now s.link.windowDeadline then
        s.withLink
          { s.link with
            window := s.link.window.map (nextWindow (s.par .loadThreshold) s.link.onsets.toNat)
            onsets := 0
            windowDeadline := some (after s.now Config.windowTicks) }
      else s)
    s

/-- The onset counted, if a window runs (R165). -/
def Link.countOnset (l : Link) : Link :=
  if l.windowDeadline.isSome then { l with onsets := saturate l.onsets } else l

/-- A rise of LNK_CD as the transmitter takes it: the quiet-since stamp is removed and a count of 1 or more is frozen into
DEFER; a count that the tick has already brought to 0 has keyed (R160, R161; log entry 8). -/
def Link.carrierRises (l : Link) : Link :=
  match l.txState with
  | .backoff 0 => { l.key with quietSince := none }
  | .backoff (b + 1) => { l with txState := .defer (some (b + 1)), quietSince := none }
  | _ => { l with quietSince := none }

/-- CARRIER_ONSET: LNK_CD rises; a collection begins, to be dropped if the operating state is LOADING or CONFIG_FAULT
(R150), the onset is counted (R165), and the transmitter's wait is frozen or restarted (R158, R161). While RESET_N is low
only the level of the input changes. -/
def execCarrierOnset (s : State) : Host.Outcome State Fault Refusal :=
  .next
    (if s.link.lnkCd then s
    else if s.resetHeld then s.withLink { s.link with lnkCd := true }
    else
      s.withLink
        { s.link.countOnset.carrierRises with
          lnkCd := true
          collection := if s.loaded then .collecting else .dropping })

/-- The collected bytes judged as one received frame (R151 to R153); a carrier period that delivered no byte yields none
(R150). -/
def State.judgeCollected (bytes : List Byte) (s : State) : State :=
  if bytes.isEmpty then s
  else
    match judge s.ownSite bytes with
    | .discarded => s.bump .linkDiscarded
    | .clash => (s.bump .siteClash).raise .siteClash
    | .passed f => ((s.withLink (s.link.receive f)).bumpIf s.link.rxFull .rxOverflow).raiseIf s.link.rxFull .rxOverflow

/-- A fall of LNK_CD as the transmitter takes it: the quiet-since stamp becomes now, once a load has succeeded and while the
key is not asserted (R158). -/
def Link.carrierFalls (now : Time) (loaded : Bool) (l : Link) : Link :=
  let low := { l with lnkCd := false, collection := .idle }
  if loaded ∧ l.txState ≠ .sending then low.becomeQuiet now else low

/-- CARRIER_FALL: LNK_CD falls; the collection ends and its bytes are judged, unless its carrier rose in LOADING or
CONFIG_FAULT (R150). While RESET_N is low only the level of the input changes. -/
def execCarrierFall (bytes : List Byte) (s : State) : Host.Outcome State Fault Refusal :=
  .next
    (if !s.link.lnkCd then s
    else if s.resetHeld then s.withLink { s.link with lnkCd := false }
    else
      let fallen := s.withLink (s.link.carrierFalls s.now s.loaded)
      if s.link.collection = .collecting then fallen.judgeCollected bytes else fallen)

/-- A frame removed from the head of the receive queue and dispatched (R154). -/
def State.dispatchFrame (f : LinkFrame) (rest : List LinkFrame) (s : State) : State :=
  let taken := s.withLink { s.link with rx := rest }
  match s.hearing.neighbourOf f.source with
  | some n => taken.dispatchNeighbour n f
  | none => taken.dispatchStranger f

/-- DISPATCH: in RUNNING the head frame of the receive queue is dispatched (R154). -/
def execDispatch (s : State) : Host.Outcome State Fault Refusal :=
  serve
    (fun s =>
      match s.link.rx with
      | f :: rest => if s.running then s.dispatchFrame f rest else s
      | [] => s)
    s

/-- The keyed frame sent: the key is dropped, the frame leaves the queue, both stamps are set, SPACING begins, and a spacing
of 0 ends in the same event (R162). -/
def Link.sent (now : Time) (spacing idleGap : Nat) (l : Link) : Link :=
  let spaced :=
    { l.becomeQuiet now with
      tx := l.tx.filter fun x => !x.keyed
      lastSent := some { time := now, old := false }
      txState := .spacing (after now spacing) }
  if spacing = 0 then spaced.endSpacing now idleGap else spaced

/-- SENT_REPORT: in SENDING, a report on LNK_SENT ends the transmission; in any other state it is ignored (R162). -/
def execSentReport (s : State) : Host.Outcome State Fault Refusal :=
  serve
    (fun s =>
      if s.link.txState = .sending then
        s.withLink (s.link.sent s.now (s.par .txSpacing) (s.par .idleGap))
      else s)
    s

end Sys2Proof.Machine
end

