-- ==== Sys2Proof/Machine/LoadEvents.lean ====
section
/-! DEFINITION. Hard reset and the configuration load: HARD_RESET, RESET_RELEASE, READ_COMPLETE, MISSING_ACKNOWLEDGE,
STUCK_DATA_LINE, LOAD_DEADLINE (R171 to R180). -/

namespace Sys2Proof.Machine

/-- A load begun: LOADING, the read buffer cleared, the load deadline set, the bus taken; the image copy stays (R172). -/
def State.beginLoad (s : State) : State :=
  s.withLoader
    { s.loader with opState := .loading, buffer := [], deadline := some (s.due Config.loadTicks), bus := [] }

/-- A load failed, `bus` being what was done on the bus: CONFIG_FAULT, its flag set, the load deadline removed (R174,
R176). -/
def State.failLoad (bus : List BusOp) (s : State) : State :=
  (s.withLoader { s.loader with opState := .configFault, deadline := none, bus := bus }).raise .configFault

/-- The neighbour records formed from an image, every one UNKNOWN (R90, R178). -/
def neighboursOfImage (image : List Byte) : Vector NeighbourRecord 8 :=
  ⟨((List.range 8).map (neighbourOfImage image)).toArray, by simp⟩

/-- Listen-only as an image gives it: bit 0 of byte 3 (R178). -/
def imageListenOnly (image : List Byte) : Bool := (byteAt image 3).getLsbD 0

/-- The Link Controller at the success of a load of `image` (R163 to R165, R169, R179). -/
def Link.loadDone (now : Time) (image : List Byte) (l : Link) : Link :=
  { l.becomeQuiet now with
    register := byteAt image 1 ++ byteAt image 1
    window := some (clampParam .initialWindow (byteAt image (paramByte .initialWindow)).toNat)
    windowDeadline := some (after now Config.windowTicks)
    onsets := 0
    txState := if imageListenOnly image then .muted else .idle }

/-- A load succeeded with the buffer `image` (R179). -/
def State.succeedLoad (image : List Byte) (s : State) : State :=
  ((((s.withLoader { s.loader with opState := .running, image := clampImage image, deadline := none }).withHearing
    { s.hearing with neighbours := neighboursOfImage image }).withPort
      { s.port with listenOnly := imageListenOnly image }).withLink (s.link.loadDone s.now image)).withStrays
        { s.strays with
          hearingDeadline :=
            some (s.due (clampParam .hearingPeriod (byteAt image (paramByte .hearingPeriod)).toNat * 10)) }

/-- A load is running (R172). -/
def State.loading (s : State) : Bool := s.loader.opState == .loading && s.loader.deadline.isSome

/-- HARD_RESET: everything abandoned, every piece of state at its value after hard reset, RESET_N low (R171). The level of
the input LNK_CD, the queue and the model's free-value index are not the part's to reset. -/
def execHardReset (s : State) : Host.Outcome State Fault Refusal :=
  .next
    { State.reset with
      link := { State.reset.link with lnkCd := s.link.lnkCd }
      freeIndex := s.freeIndex
      pending := s.pending }

/-- RESET_RELEASE: RESET_N rises, the operating state becomes LOADING and a load begins (R171, R172). -/
def execResetRelease (s : State) : Host.Outcome State Fault Refusal :=
  .next (if s.resetHeld then (s.withReset false).beginLoad else s)

/-- READ_COMPLETE: the 96 bytes are checked and the load succeeds or fails (R175, R176, R179). -/
def execReadComplete (pulses : Nat) (image : List Byte) (s : State) : Host.Outcome State Fault Refusal :=
  serveIf (Instr.readComplete pulses image).wellFormed
    (fun s =>
      if s.loading then
        let read := s.withLoader { s.loader with buffer := image, bus := readSequence pulses image }
        if imagePasses image then read.succeedLoad image else read.failLoad (readSequence pulses image)
      else s)
    s

/-- MISSING_ACKNOWLEDGE: the load fails (R174). -/
def execMissingAcknowledge (pulses : Nat) (point : AckPoint) (s : State) : Host.Outcome State Fault Refusal :=
  serveIf (Instr.missingAcknowledge pulses point).wellFormed
    (fun s => if s.loading then s.failLoad (missingAckSequence pulses point) else s) s

/-- STUCK_DATA_LINE: the load fails (R174). -/
def execStuckDataLine (s : State) : Host.Outcome State Fault Refusal :=
  serve (fun s => if s.loading then s.failLoad stuckSequence else s) s

/-- LOAD_DEADLINE: reached before the stop condition has been sent, the load fails (R174). -/
def execLoadDeadline (progress : BusProgress) (clockHeld : Bool) (s : State) : Host.Outcome State Fault Refusal :=
  serveIf (Instr.loadDeadline progress clockHeld).wellFormed
    (fun s =>
      if s.loader.opState == .loading && reached s.now s.loader.deadline then
        (s.withLoader { s.loader with buffer := progress.bytes }).failLoad (deadlineSequence progress clockHeld)
      else s)
    s

end Sys2Proof.Machine
end

