-- ==== Sys2Proof/Machine/IntakeLayer.lean ====
section
/-! DEFINITION. Report Intake's shared operations: a slot's effect on its path lock (R6 to R13), the admission check (R14),
the routing of observations (R16), and what the Roster Engine does with one (R35 to R45). -/

namespace Sys2Proof.Machine

/-! ### Path locks -/

/-- A slot that finds silence on a path: a LOCKED lock counts it, and is freed at the third (R10). -/
def silentSlot (lock : Option PathLock) : Option PathLock :=
  match lock with
  | none => none
  | some l => if 3 ≤ l.nones + 1 then none else some { l with nones := l.nones + 1 }

/-- A slot of another kind that leaves the lock on its radio: the NONE count becomes 0 (R8, R12). -/
def heardSlot (lock : Option PathLock) : Option PathLock := lock.map fun l => { l with nones := 0 }

/-- What one slot does: the lock after it, the radio for which an observation is formed, and which counter it adds to. -/
structure SlotEffect where
  lock : Option PathLock
  observed : Option Radio
  orphan : Bool
  invalid : Bool
  deriving DecidableEq, Repr

/-- A slot that names its own radio `r`: an observation for it where the ID is valid, else counted as non-admitted (R7, R12,
R13). -/
def namedSlot (r : Radio) (lock : Option PathLock) : SlotEffect :=
  if validRadio r then { lock := lock, observed := some r, orphan := false, invalid := false }
  else { lock := lock, observed := none, orphan := false, invalid := true }

/-- A slot's effect on its path, by its kind and the lock before it (the table of R6; R7 to R13). -/
def slotEffect (kind : SlotKind) (r : Radio) (lock : Option PathLock) : SlotEffect :=
  match kind with
  | .silent => { lock := silentSlot lock, observed := none, orphan := false, invalid := false }
  | .unknown => { lock := silentSlot lock, observed := none, orphan := true, invalid := false }
  | .burst .header => namedSlot r (if validRadio r then some { radio := r, nones := 0 } else none)
  | .burst .emergency => namedSlot r (if validRadio r then some { radio := r, nones := 0 } else none)
  | .burst .registration => namedSlot r (heardSlot lock)
  | .burst .data => namedSlot r (heardSlot lock)
  | .burst .voice =>
    match lock with
    | some l => { lock := heardSlot lock, observed := some l.radio, orphan := false, invalid := false }
    | none => { lock := none, observed := none, orphan := true, invalid := false }
  | .burst .terminator =>
    match lock with
    | some l => { lock := none, observed := some l.radio, orphan := false, invalid := false }
    | none => { lock := none, observed := none, orphan := true, invalid := false }

/-! ### What the Roster Engine does with an observation -/

/-- A homing: the entry created at index `i`, announced and evaluated (R36). -/
def State.home (i : Fin 64) (o : Observation) (s : State) : State :=
  let e := s.newHomed o
  ((s.createEntry i e).announce e).evalAt i

/-- A homing refused for want of room (R37). -/
def State.refuseHoming (o : Observation) (s : State) : State :=
  ((s.offerRefuse o.radio).bump .registrationsRefused).raise .rosterFull

/-- An own-path observation of a radio that has no entry: homed, refused, or without effect for a TERMINATOR (R35). -/
def State.homeOrRefuse (o : Observation) (s : State) : State :=
  if o.kind = .terminator then s
  else if s.mayCreate (o.kind == .emergency) then
    match lowestFree s.roster.entries with
    | some i => s.home i o
    | none => s.refuseHoming o
  else s.refuseHoming o

/-- The arrival of the handset of a reservation: the EXPECTED entry `e` at index `i` becomes HOMED, is announced and
evaluated (R43). -/
def State.arrive (i : Fin 64) (e : RosterEntry) (o : Observation) (s : State) : State :=
  ((s.updateEntry i (s.arrived o)).announce (s.arrived o e)).evalAt i

/-- An own-path observation of a LEAVING entry: a REGISTRATION or EMERGENCY ends the LEAVING period (R42, R123), any other
kind sets the heard-while-leaving mark. -/
def State.hearLeaving (i : Fin 64) (r : Radio) (o : Observation) (s : State) : State :=
  let refreshed := s.updateEntry i (s.refreshed o)
  if o.kind = .registration ∨ o.kind = .emergency then
    match (s.departureIndex r).bind fun p => s.nego.departures[p] with
    | some d => ((refreshed.revert d).bumpIf (o.kind == .registration) .steerFailed).arbiter
    | none => refreshed
  else refreshed.updateEntry i fun e => { e with heardWhileLeaving := true }

/-- An own-path observation of a rostered radio (R38 to R43). -/
def State.hearRostered (i : Fin 64) (e : RosterEntry) (o : Observation) (s : State) : State :=
  match e.state with
  | .homed => (s.updateEntry i (s.refreshed o)).evalAt i
  | .asking => s.updateEntry i (s.refreshed o)
  | .leaving => s.hearLeaving i e.radio o
  | .expected => s.arrive i e o

/-- The lost deadline of a HOMED entry pulled forward by an away sighting (R44). -/
def State.pulledLost (s : State) (deadline : Time) : Time :=
  if s.par .awayLoss * 100 < remaining s.now deadline then s.due (s.par .awayLoss * 100) else deadline

/-- A monitor-path observation of a rostered radio: an away sighting (R44), or a hearing of a reservation (R45). -/
def State.sighted (s : State) (o : Observation) (e : RosterEntry) : RosterEntry :=
  match e.state with
  | .expected => { e with f := s.observedF e.f o }
  | .homed =>
    { e with
      away := some { neighbour := o.neighbour, stamp := s.now }
      lostDeadline := e.lostDeadline.map s.pulledLost }
  | .asking => { e with away := some { neighbour := o.neighbour, stamp := s.now } }
  | .leaving => { e with away := some { neighbour := o.neighbour, stamp := s.now } }

/-- An observation delivered by path class and the roster as it stands (R16). -/
def State.deliver (o : Observation) (s : State) : State :=
  match s.rosterIndex o.radio with
  | none => if isMonitor o.position then s.observeStray o else s.homeOrRefuse o
  | some i =>
    if isMonitor o.position then s.updateEntry i (s.sighted o)
    else
      match s.roster.entries[i] with
      | some e => s.hearRostered i e o
      | none => s

/-- An observation formed: delivered if its radio is admitted, else counted and discarded (R14). -/
def State.admitThenDeliver (o : Observation) (s : State) : State :=
  if admitted s.loader.image o.radio then s.deliver o else s.bump .nonAdmitted

/-! ### Frames -/

/-- The observation that a slot of kind `kind` at position `p` forms for a radio (R5, R15). -/
def observationOf (p : Fin 8) (slot : Slot) (kind : ObsKind) (r : Radio) : Observation :=
  { radio := r, kind := kind, level := slot.level, quality := slot.quality, position := p, neighbour := slot.neighbour,
    origin := slot.origin, count := slot.count }

/-- The path lock at position `p` set. -/
def State.setLock (p : Fin 8) (lock : Option PathLock) (s : State) : State :=
  s.withIntake { s.intake with locks := s.intake.locks.set p lock }

/-- The slot at position `p` handled whole: its effect on the lock, its counting, and the delivery of its observation
(R5 to R16). -/
def State.takeSlot (frame : List Byte) (s : State) (p : Fin 8) : State :=
  let slot := slotAt frame p
  let effect := slotEffect slot.kind slot.radio s.intake.locks[p]
  let counted := ((s.setLock p effect.lock).bumpIf effect.orphan .orphanBursts).bumpIf effect.invalid .nonAdmitted
  match slot.kind, effect.observed with
  | .burst kind, some r => counted.admitThenDeliver (observationOf p slot kind r)
  | _, _ => counted

/-- The eight slots of an accepted frame, in position order (R5). -/
def State.takeSlots (frame : List Byte) (s : State) : State := (List.finRange 8).foldl (State.takeSlot frame) s

/-- All path locks FREE (R4, R6). -/
def Intake.freeLocks (x : Intake) : Intake := { x with locks := Vector.replicate 8 none }

/-- A gap: the locks freed, the gap counted, REPORT_GAP set (R4). -/
def State.reportGap (s : State) : State :=
  ((s.withIntake s.intake.freeLocks).bump .reportGaps).raise .reportGap

/-- The frame-number check of R2: accepted in sequence, accepted after a gap, or discarded. -/
inductive FrameCheck where
  | inSequence
  | afterGap
  | discarded
  deriving DecidableEq, Repr

/-- The difference of a frame number from the expectation, read (R2). -/
def frameCheck (expectation : Option Byte) (n : Byte) : FrameCheck :=
  match expectation with
  | none => .inSequence
  | some last =>
    let d := (n - last).toNat
    if d = 1 then .inSequence else if 2 ≤ d ∧ d ≤ 127 then .afterGap else .discarded

/-- An accepted frame's number becomes the last accepted number (R2). -/
def State.expect (n : Byte) (s : State) : State := s.withIntake { s.intake with expectation := some n }

/-- A frame taken in RUNNING (R2 to R16). -/
def State.takeFrame (frame : List Byte) (s : State) : State :=
  let n := byteAt frame 0
  match frameCheck s.intake.expectation n with
  | .inSequence => (s.expect n).takeSlots frame
  | .afterGap => ((s.expect n).reportGap).takeSlots frame
  | .discarded => s

end Sys2Proof.Machine
end

