-- ==== Sys2Proof/Machine/PortLayer.lean ====
section
/-! DEFINITION. The Maintenance Port's shared operations: command frames (R184, R185), table records (R191; 00_scope.md, 7.4),
the settings (R193 to R195) and the flush (R196). -/

namespace Sys2Proof.Machine

/-! ### Command frames -/

/-- A maintenance command: its code, its argument bytes, the length of its reply, whether it is in the command table, how its
reply is formed, and its effect at the end of a complete frame, given the reply that was shown (R184). -/
structure PortCommand where
  code : Byte
  args : List Byte
  replyLength : Nat
  inTable : Bool
  reply : State → List Byte
  effect : List Byte → State → State

/-- The code of STATUS, the one command served while the port is BUSY (R185). -/
def statusCode : Byte := 0x01

/-- The command is refused when its command byte arrives: it is not in the table, or the port is BUSY and it is not STATUS
(R184, R185). -/
def PortCommand.refusedIn (c : PortCommand) (s : State) : Bool :=
  !c.inTable || (s.port.busy && c.code != statusCode)

/-- The reply formed, unless the command is refused. -/
def PortCommand.replyUnless (c : PortCommand) (refused : Bool) (s : State) : Option (List Byte) :=
  if refused then none else some (c.reply s)

/-- The command byte arrives: the frame opens, the port state is tested, and the reply of a command without arguments is
formed (R184, R185). A frame cannot begin while one is open, and such a command changes nothing (log entry 2). -/
def State.commandByte (c : PortCommand) (s : State) : State :=
  if s.port.frame.isSome then s
  else
    let refused := c.refusedIn s
    let noArgs := c.args.isEmpty
    s.withPort
      { s.port with
        frame :=
          some
            { code := c.code
              args := if noArgs then some [] else none
              refused := refused
              reply := if noArgs then c.replyUnless refused s else none } }

/-- The last argument byte arrives: the reply of a command with arguments is formed (R184). On no frame of this command that
waits for its arguments the event cannot occur and changes nothing (log entry 2). -/
def State.argumentBytes (c : PortCommand) (s : State) : State :=
  match s.port.frame with
  | some f =>
    if f.code == c.code && f.args.isNone && !c.args.isEmpty then
      s.withPort
        { s.port with frame := some { f with args := some c.args, reply := c.replyUnless f.refused s } }
    else s
  | none => s

/-- The bytes on MNT_DO in a frame of which `clocked` bytes followed the command byte: 0x00 during the command byte and the
arguments, the reply, and 0x00 after it (R184). -/
def shiftedOut (argCount clocked : Nat) (reply : List Byte) : List Byte :=
  (List.replicate (1 + argCount) 0x00 ++ reply ++ List.replicate clocked 0x00).take (clocked + 1)

/-- The frame holds the command byte, all argument bytes and enough further bytes for the whole reply (R184). -/
def PortCommand.complete (c : PortCommand) (f : OpenFrame) (clocked : Nat) : Bool :=
  f.args == some c.args && decide (c.args.length + c.replyLength ≤ clocked)

/-- MNT_SEL can rise on the open frame `f` of this command, `clocked` bytes having followed the command byte: where the
arguments have been taken, they are among those bytes (R184; log entry 18). -/
def PortCommand.risesOn (c : PortCommand) (clocked : Nat) (f : OpenFrame) : Bool :=
  f.code == c.code && (f.args.isNone || (f.args == some c.args && decide (c.args.length ≤ clocked)))

/-- MNT_SEL rises on a frame of this command: a complete frame that was not refused takes effect, any other is dropped with
CMD_DROPPED (R184, R185). Argument bytes that were clocked and that no event of their own has taken arrive here, just
before the rise; a rise with fewer bytes than the arguments already taken cannot occur and changes nothing (DESIGN CHOICE,
log entry 18). -/
def State.frameEnds (c : PortCommand) (clocked : Nat) (s : State) : State :=
  let arrived := if c.args.length ≤ clocked then s.argumentBytes c else s
  match arrived.port.frame with
  | some f =>
    if c.risesOn clocked f then
      let shown := f.reply.getD []
      let ended := arrived.withPort { arrived.port with frame := none, mntDo := shiftedOut c.args.length clocked shown }
      if !f.refused && c.complete f clocked then c.effect shown ended else ended.raise .cmdDropped
    else s
  | none => s

/-- A whole frame with no other event of the part inside it: the command byte and the rise (R184). -/
def State.wholeFrame (c : PortCommand) (clocked : Nat) (s : State) : State :=
  if s.port.frame.isSome then s else (s.commandByte c).frameEnds c clocked

/-- The part of a command's frame that is taken (R184). -/
def State.portCommand (c : PortCommand) (part : FramePart) (s : State) : State :=
  match part with
  | .command => s.commandByte c
  | .arguments => s.argumentBytes c
  | .rise clocked => s.frameEnds c clocked
  | .whole clocked => s.wholeFrame c clocked

/-- A command without a reply. -/
def noReply (_ : State) : List Byte := []

/-! ### STATUS -/

/-- The operating state as STATUS shows it (R186). -/
def OpState.code : OpState → Byte
  | .loading => 0
  | .configFault => 1
  | .running => 2
  | .flushing => 3

/-- The hold mode as STATUS shows it (R186). -/
def HoldMode.code : HoldMode → Byte
  | .opened => 0
  | .hold => 1
  | .closed => 2

/-- The departure records held (R111, R186). -/
def State.departureCount (s : State) : Nat := heldCount s.nego.departures

/-- The seven bytes of a STATUS reply (R186). -/
def State.statusReply (s : State) : List Byte :=
  [s.loader.opState.code, flagByte s.port.busy, s.port.hold.code, flagByte s.port.listenOnly, numByte s.occupancy,
    numByte s.departureCount, numByte (s.link.window.getD 0)]

/-! ### Records -/

/-- The number of positions of a table (R189). -/
def tableSize (t : Fin 8) : Nat :=
  match t with
  | 0 => 64 | 1 => 32 | 2 => 128 | 3 => 8 | 4 => 4 | 5 => 2 | 6 => 8 | 7 => 8

/-- A record of 40 bytes, the bytes after the given ones being 0 (R191). -/
def padRecord (bytes : List Byte) : List Byte := (bytes ++ List.replicate Config.recordSize 0x00).take Config.recordSize

/-- The ticks to a deadline in two bytes, 0 where none is held (R191). -/
def remainingBytes (now : Time) (deadline : Option Time) : List Byte :=
  match deadline with
  | some d => wordBytes (BitVec.ofNat 16 (remaining now d))
  | none => [0x00, 0x00]

/-- The state of a roster entry as a record shows it (00_scope.md, 7.4). -/
def EntryState.code : EntryState → Byte
  | .homed => 0
  | .asking => 1
  | .leaving => 2
  | .expected => 3

/-- The presence flags of a roster record; F is always present (00_scope.md, 7.4; R32). -/
def presenceFlags (pinned : Bool) (e : RosterEntry) : Byte :=
  1 ||| (if e.emergency.isSome then 2 else 0) ||| (if e.callActive.isSome then 4 else 0)
    ||| (if e.away.isSome then 8 else 0) ||| (if e.dwell.isSome then 16 else 0) ||| (if e.askReady then 32 else 0)
    ||| (if e.exclusion.isSome then 64 else 0) ||| (if pinned then 128 else 0)

/-- The bytes of a field that may be absent: where it is, the spec states no value and they are free bytes, `free` giving
them by their place in the record (log entry 3). -/
def bytesOrFree {α : Type} (free : Nat → Byte) (place length : Nat) (field : Option α) (bytes : α → List Byte) :
    List Byte :=
  match field with
  | some x => bytes x
  | none => (List.range length).map fun k => free (place + k)

/-- A roster record (00_scope.md, 7.4). -/
def rosterRecord (now : Time) (free : Nat → Byte) (pinned : Bool) (i : Nat) (e : RosterEntry) : List Byte :=
  [0x00, numByte i] ++ radioBytes e.radio ++ [e.state.code, presenceFlags pinned e, countByte e.count]
    ++ wordBytes (BitVec.ofNat 16 e.f) ++ timeBytes e.lastHeard
    ++ bytesOrFree free 14 4 e.arrival (fun a => timeBytes a.stamp)
    ++ [(e.arrival.map Arrival.origin).getD 0]
    ++ bytesOrFree free 19 5 e.away (fun a => numByte a.neighbour.val :: timeBytes a.stamp)
    ++ remainingBytes now e.lostDeadline ++ remainingBytes now e.emergency ++ remainingBytes now e.callActive
    ++ remainingBytes now e.dwell
    ++ bytesOrFree free 32 1 e.exclusion (fun x => [numByte x.neighbour.val])
    ++ remainingBytes now (e.exclusion.map Exclusion.deadline)
    ++ bytesOrFree free 35 2 e.reservation (fun x => [x.fromSite, x.sequence])
    ++ remainingBytes now (e.reservation.map Reservation.deadline)

/-- A stray record (R191, table 1). -/
def strayRecord (now : Time) (e : StrayEntry) : List Byte :=
  radioBytes e.radio ++ wordBytes (BitVec.ofNat 16 e.f) ++ timeBytes e.lastHeard
    ++ [numByte e.neighbour.val, flagByte e.reported] ++ remainingBytes now (some e.ageDeadline)

/-- A hearing record (R191, table 2). -/
def hearingRecord (now : Time) (e : HearingEntry) : List Byte :=
  [numByte e.neighbour.val] ++ radioBytes e.radio ++ [numByte e.level] ++ timeBytes e.received
    ++ remainingBytes now (some e.expiry)

/-- The state of a neighbour record as table 3 shows it (R191). -/
def NeighbourState.code : NeighbourState → Byte
  | .unknown => 0
  | .live => 1
  | .silent => 2

/-- A neighbour record (R191, table 3); where no last-frame stamp is held its bytes are free bytes (log entry 3). -/
def neighbourRecordBytes (now : Time) (free : Nat → Byte) (n : NeighbourRecord) : List Byte :=
  [n.site, n.channel, BitVec.ofInt 8 n.bias, flagByte n.accept, n.state.code, flagByte n.lastFrame.isSome]
    ++ bytesOrFree free 9 4 n.lastFrame timeBytes ++ remainingBytes now n.silence

/-- The phase of a departure record as table 4 shows it (R191). -/
def Phase.code : Phase → Byte
  | .asking => 1
  | .leaving => 2

/-- A departure record (R191, table 4). -/
def State.departureRecord (s : State) (d : Departure) : List Byte :=
  radioBytes d.radio
    ++ [numByte d.rosterIndex.val, numByte d.target.val, s.hearing.neighbours[d.target].site, d.sequence, d.phase.code,
      numByte d.attempt]
    ++ remainingBytes s.now (some d.deadline)
    ++ [numByte d.ownLevel, numByte d.neighbourLevel,
      (if d.emergency then 1 else 0) ||| (if d.rescue then 2 else 0),
      flagByte (s.roster.entries[d.rosterIndex].any RosterEntry.heardWhileLeaving)]

/-- The outcome of a history record as table 5 shows it (R191). -/
def Departed.code : Departed → Byte
  | .confirmed => 1
  | .elsewhere => 2
  | .unconfirmed => 3
  | .lost => 4
  | .superseded => 5

/-- A history record (R191, table 5). -/
def historyRecord (x : History) : List Byte :=
  radioBytes x.radio ++ [x.toSite] ++ timeBytes x.stamp ++ [x.outcome.code]

/-- A steer order (R191, table 6). -/
def orderRecord (o : SteerOrder) : List Byte :=
  [o.kind.code] ++ radioBytes o.radio ++ [o.channel, o.site, numByte o.repeats]

/-- The bytes of a record of tables 1 to 7 from its table number on: byte 2 is 1 where the position holds something; a free
position has 0 from byte 2 on (R191). -/
def tableRecord (t : Fin 8) (i : Nat) (held : Option (List Byte)) : List Byte :=
  match held with
  | some bytes => padRecord ([numByte t.val, numByte i, 0x01] ++ bytes)
  | none => padRecord [numByte t.val, numByte i]

/-- Entry `i` of a table of positions, where it is below the table's size and held. -/
def slotAtNat {α : Type} {n : Nat} (v : Vector (Option α) n) (i : Nat) : Option α := (v[i]?).join

/-- The record at position `i` of table `t` as it stands (R189, R191). -/
def State.tableEntry (t : Fin 8) (i : Nat) (s : State) : List Byte :=
  let free (k : Nat) : Byte := Config.freeByte (s.freeIndex + k)
  match t with
  | 0 =>
    match slotAtNat s.roster.entries i with
    | some e => padRecord (rosterRecord s.now free (s.roster.pins.contains e.radio) i e)
    | none => padRecord [0x00, numByte i]
  | 1 => tableRecord 1 i ((slotAtNat s.strays.entries i).map (strayRecord s.now))
  | 2 => tableRecord 2 i ((slotAtNat s.hearing.table i).map (hearingRecord s.now))
  | 3 => tableRecord 3 i ((s.hearing.neighbours[i]?).map (neighbourRecordBytes s.now free))
  | 4 => tableRecord 4 i ((slotAtNat s.nego.departures i).map s.departureRecord)
  | 5 => tableRecord 5 i ((if i = 0 then s.nego.last else s.nego.previous).map historyRecord)
  | 6 => tableRecord 6 i ((s.steer.orders[i]?).map orderRecord)
  | 7 => tableRecord 7 i ((s.roster.pins[i]?).map radioBytes)

/-- The end marker of a table: 0xFF in byte 1 and 0 in bytes 2 to 39 (R191). -/
def endMarker (t : Fin 8) : List Byte := padRecord [numByte t.val, 0xFF]

/-- The record that a fetch copies into the holder (R190). -/
def State.fetched (x : Fetch) (s : State) : List Byte :=
  match x.position with
  | some i => s.tableEntry x.table i
  | none => endMarker x.table

/-- A fetch started at the cursor: of its position, the cursor index then increasing by one, or of the end marker; the port
becomes BUSY (R190). -/
def State.startFetch (s : State) : State :=
  let i := s.port.cursorIndex.toNat
  let within := decide (i < tableSize s.port.cursorTable)
  s.withPort
    { s.port with
      busy := true
      fetch := some { table := s.port.cursorTable, position := if within then some i else none }
      cursorIndex := if within then s.port.cursorIndex + 1 else s.port.cursorIndex }

/-! ### Settings -/

/-- A command dropped with CMD_DROPPED. -/
def State.dropCommand (s : State) : State := s.raise .cmdDropped

/-- The hold mode that an argument of SET HOLD names (R193). -/
def holdModeOf (b : Byte) : Option HoldMode :=
  match b.toNat with
  | 0 => some .opened
  | 1 => some .hold
  | 2 => some .closed
  | _ => none

/-- The hold mode set; a change evaluates every HOMED entry in the one event (R99, R193). -/
def State.setHoldMode (m : HoldMode) (s : State) : State :=
  if s.port.hold = m then s else (s.withPort { s.port with hold := m }).evalAll

/-- A radio added to the pin list, or the command dropped, or nothing for a listed radio (R58, R194). -/
def State.pinRadio (r : Radio) (s : State) : State :=
  if s.roster.pins.contains r then s
  else if !validRadio r || decide (Config.pinListSize ≤ s.roster.pins.length) then s.dropCommand
  else (s.withRoster { s.roster with pins := s.roster.pins ++ [r] }).evalRadios fun x => x == r

/-- A radio removed from the pin list, the rest closing up, or nothing for an unlisted radio (R58, R194). -/
def State.unpinRadio (r : Radio) (s : State) : State :=
  if s.roster.pins.contains r then
    (s.withRoster { s.roster with pins := s.roster.pins.filter fun x => x != r }).evalRadios fun x => x == r
  else s

/-- The Link Controller when listen-only is entered: a keyed frame abandoned, the quiet-since stamp set to now if LNK_CD is
low, the transmit queue emptied, MUTED (R167). -/
def Link.mute (now : Time) (l : Link) : Link := { l.becomeQuiet now with tx := [], txState := .muted }

/-- The Link Controller when listen-only is left: IDLE (R168). -/
def Link.unmute (l : Link) : Link := { l with txState := .idle }

/-- Listen-only set or cleared; a change mutes or unmutes the transmitter and evaluates every HOMED entry (R195). -/
def State.setListenOnly (on : Bool) (s : State) : State :=
  if s.port.listenOnly = on then s
  else
    ((s.withPort { s.port with listenOnly := on }).withLink
      (if on then s.link.mute s.now else s.link.unmute)).evalAll

/-- The setting that an argument of LISTEN ONLY names (R195). -/
def listenSettingOf (b : Byte) : Option Bool :=
  match b.toNat with
  | 0 => some false
  | 1 => some true
  | _ => none

/-! ### Flush -/

/-- The Link Controller at the beginning of a flush: both queues emptied, a keyed frame abandoned, IDLE or MUTED (R170). -/
def Link.flushed (now : Time) (listenOnly : Bool) (l : Link) : Link :=
  { l.dropKey now with rx := [], tx := [], txState := if listenOnly then .muted else .idle }

/-- The beginning of a flush: FLUSHING, BUSY, and everything of R196's table emptied or reset (R59, R74, R90, R135, R147,
R170). -/
def State.beginFlush (s : State) : State :=
  { s with
    loader := { s.loader with opState := .flushing }
    port := { s.port with busy := true }
    roster := { s.roster with entries := Vector.replicate 64 none }
    strays := { s.strays with entries := Vector.replicate 32 none, cursor := 0 }
    hearing :=
      { neighbours := mapSlots NeighbourRecord.forget s.hearing.neighbours, table := Vector.replicate 128 none }
    nego := { s.nego with departures := Vector.replicate 4 none }
    steer := { s.steer with orders := [], admission := [], strRdy := false, strDat := [] }
    link := s.link.flushed s.now s.port.listenOnly
    intake := { s.intake.freeLocks with expectation := none } }

end Sys2Proof.Machine
end

