-- ==== Sys2Proof/Machine/PortEvents.lean ====
section
/-! DEFINITION. The maintenance port: the commands of R184's table, UNKNOWN_COMMAND, FETCH_COMPLETE and FLUSH_COMPLETE. -/

namespace Sys2Proof.Machine

/-- STATUS (R186). -/
def statusCommand : PortCommand :=
  { code := statusCode, args := [], replyLength := 7, inTable := true, reply := State.statusReply, effect := fun _ s => s }

/-- STATUS: seven bytes, nothing changed (R186). -/
def execStatus (part : FramePart) (s : State) : Host.Outcome State Fault Refusal :=
  serve (State.portCommand statusCommand part) s

/-- PEEK ATTENTION (R187). -/
def peekCommand : PortCommand :=
  { code := 0x02, args := [], replyLength := 1, inTable := true, reply := fun s => [s.port.flags.toByte],
    effect := fun _ s => s }

/-- PEEK ATTENTION: the flags shown, nothing cleared (R187). -/
def execPeekAttention (part : FramePart) (s : State) : Host.Outcome State Fault Refusal :=
  serve (State.portCommand peekCommand part) s

/-- TAKE ATTENTION (R188). -/
def takeCommand : PortCommand :=
  { code := 0x03, args := [], replyLength := 1, inTable := true, reply := fun s => [s.port.flags.toByte],
    effect := fun shown s => s.withPort { s.port with flags := s.port.flags.without (byteAt shown 0) } }

/-- TAKE ATTENTION: the flags shown, and exactly those cleared at the end of the frame (R188). -/
def execTakeAttention (part : FramePart) (s : State) : Host.Outcome State Fault Refusal :=
  serve (State.portCommand takeCommand part) s

/-- SELECT TABLE (R189). -/
def selectCommand (table index : Byte) : PortCommand :=
  { code := 0x10, args := [table, index], replyLength := 0, inTable := true, reply := noReply,
    effect := fun _ s =>
      if h : table.toNat < 8 then
        s.withPort { s.port with cursorTable := ⟨table.toNat, h⟩, cursorIndex := index }
      else s.dropCommand }

/-- SELECT TABLE: the cursor set, or the command refused for a table above 7 (R189). -/
def execSelectTable (table index : Byte) (part : FramePart) (s : State) : Host.Outcome State Fault Refusal :=
  serve (State.portCommand (selectCommand table index) part) s

/-- READ ENTRY (R190). -/
def readCommand : PortCommand :=
  { code := 0x11, args := [], replyLength := Config.recordSize, inTable := true, reply := fun s => s.port.holder,
    effect := fun _ s => s.startFetch }

/-- READ ENTRY: the holder shown, and a fetch started at the end of the frame (R190). -/
def execReadEntry (part : FramePart) (s : State) : Host.Outcome State Fault Refusal :=
  serve (State.portCommand readCommand part) s

/-- FETCH_COMPLETE: the record as it stands, or the end marker, copied into the holder, and the port READY (R190). The free
bytes that the record may have used are counted as used (log entry 3). -/
def execFetchComplete (s : State) : Host.Outcome State Fault Refusal :=
  serve
    (fun s =>
      match s.port.fetch with
      | some x =>
        (s.withPort { s.port with holder := s.fetched x, fetch := none, busy := false }).withFreeIndex
          (s.freeIndex + Config.recordSize)
      | none => s)
    s

/-- READ COUNTERS (R192). -/
def countersCommand (clear : Byte) : PortCommand :=
  { code := 0x12, args := [clear], replyLength := 32, inTable := true, reply := fun s => counterBytes s.port.counters,
    effect := fun shown s =>
      if clear = 0 then s else s.withPort { s.port with counters := reduceCounters s.port.counters shown } }

/-- READ COUNTERS: the sixteen counters shown, and with a clear byte that is not 0 each reduced by the value shown (R192). -/
def execReadCounters (clear : Byte) (part : FramePart) (s : State) : Host.Outcome State Fault Refusal :=
  serve (State.portCommand (countersCommand clear) part) s

/-- SET HOLD (R193). -/
def holdCommand (mode : Byte) : PortCommand :=
  { code := 0x20, args := [mode], replyLength := 0, inTable := true, reply := noReply,
    effect := fun _ s =>
      match holdModeOf mode with
      | some m => s.setHoldMode m
      | none => s.dropCommand }

/-- SET HOLD: the hold mode set, or the command refused for an argument above 2 (R193). -/
def execSetHold (mode : Byte) (part : FramePart) (s : State) : Host.Outcome State Fault Refusal :=
  serve (State.portCommand (holdCommand mode) part) s

/-- PIN (R194). -/
def pinCommand (r : Radio) : PortCommand :=
  { code := 0x21, args := radioBytes r, replyLength := 0, inTable := true, reply := noReply,
    effect := fun _ s => s.pinRadio r }

/-- PIN: the radio added to the pin list (R58, R194). -/
def execPin (r : Radio) (part : FramePart) (s : State) : Host.Outcome State Fault Refusal :=
  serve (State.portCommand (pinCommand r) part) s

/-- UNPIN (R194). -/
def unpinCommand (r : Radio) : PortCommand :=
  { code := 0x22, args := radioBytes r, replyLength := 0, inTable := true, reply := noReply,
    effect := fun _ s => s.unpinRadio r }

/-- UNPIN: the radio removed from the pin list (R58, R194). -/
def execUnpin (r : Radio) (part : FramePart) (s : State) : Host.Outcome State Fault Refusal :=
  serve (State.portCommand (unpinCommand r) part) s

/-- LISTEN ONLY (R195). -/
def listenCommand (setting : Byte) : PortCommand :=
  { code := 0x23, args := [setting], replyLength := 0, inTable := true, reply := noReply,
    effect := fun _ s =>
      match listenSettingOf setting with
      | some on => if s.running then s.setListenOnly on else s.dropCommand
      | none => s.dropCommand }

/-- LISTEN ONLY: listen-only set or cleared in RUNNING, else the command dropped (R195). -/
def execListenOnly (setting : Byte) (part : FramePart) (s : State) : Host.Outcome State Fault Refusal :=
  serve (State.portCommand (listenCommand setting) part) s

/-- FLUSH (R196). -/
def flushCommand : PortCommand :=
  { code := 0x30, args := [], replyLength := 0, inTable := true, reply := noReply,
    effect := fun _ s => if s.running then s.beginFlush else s.dropCommand }

/-- FLUSH: a flush begun in RUNNING, else the command dropped (R196). -/
def execFlush (part : FramePart) (s : State) : Host.Outcome State Fault Refusal :=
  serve (State.portCommand flushCommand part) s

/-- FLUSH_COMPLETE: the operating state returns to RUNNING and the port to READY (R197). -/
def execFlushComplete (s : State) : Host.Outcome State Fault Refusal :=
  serve
    (fun s =>
      if s.loader.opState == .flushing then
        (s.withLoader { s.loader with opState := .running }).withPort { s.port with busy := false }
      else s)
    s

/-- RELOAD (R180). -/
def reloadCommand : PortCommand :=
  { code := 0x31, args := [], replyLength := 0, inTable := true, reply := noReply,
    effect := fun _ s => if s.loader.opState == .configFault then s.beginLoad else s.dropCommand }

/-- RELOAD: a load begun in CONFIG_FAULT, else the command dropped (R180). -/
def execReload (part : FramePart) (s : State) : Host.Outcome State Fault Refusal :=
  serve (State.portCommand reloadCommand part) s

/-- A command byte that is not in the command table: refused, 0x00 clocked out (R184). -/
def unknownPortCommand (code : Byte) : PortCommand :=
  { code := code, args := [], replyLength := 0, inTable := false, reply := noReply, effect := fun _ s => s }

/-- UNKNOWN_COMMAND: refused, and CMD_DROPPED set at the end of the frame (R184). -/
def execUnknownCommand (code : Byte) (part : FramePart) (s : State) : Host.Outcome State Fault Refusal :=
  serveIf (Instr.unknownCommand code part).wellFormed (State.portCommand (unknownPortCommand code) part) s

end Sys2Proof.Machine
end

