-- ==== Sys2Proof/Machine/ReportEvents.lean ====
section
/-! DEFINITION. The burst report port: REPORT_FRAME_START and REPORT_FRAME (R1). -/

namespace Sys2Proof.Machine

/-- REPORT_FRAME_START: any partial frame is abandoned and collection of a new one begins (R1). -/
def execReportFrameStart (s : State) : Host.Outcome State Fault Refusal :=
  serve (fun s => s.withIntake { s.intake with collecting := true }) s

/-- REPORT_FRAME: the 65th byte of the frame that a pulse began arrives; the frame is discarded outside RUNNING and
otherwise taken (R1). Bytes that no pulse has begun are ignored (R1). -/
def execReportFrame (frame : List Byte) (s : State) : Host.Outcome State Fault Refusal :=
  serveIf (Instr.reportFrame frame).wellFormed
    (fun s =>
      if s.intake.collecting then
        let ended := s.withIntake { s.intake with collecting := false }
        if s.running then ended.takeFrame frame else ended
      else s)
    s

end Sys2Proof.Machine
end

