-- ==== Sys2Proof/Machine/RosterEvents.lean ====
section
/-! DEFINITION. The deadlines of roster entries: LOST_DEADLINE, CALL_ACTIVE_DEADLINE, EMERGENCY_CLEAR, GUARD_PERIOD_END,
RESERVATION_DEADLINE, DWELL_EXPIRY, EXCLUSION_DEADLINE. An index whose entry does not hold the deadline at the current site
time has nothing to reach (log entry 2). -/

namespace Sys2Proof.Machine

/-- Do `f` to the state with the entry at index `i` where there is one and `due` holds of it; otherwise nothing. -/
def State.whenDue (i : Fin 64) (due : RosterEntry → Bool) (f : RosterEntry → State → State) (s : State) : State :=
  match s.roster.entries[i] with
  | some e => if due e then f e s else s
  | none => s

/-- The site number at an away sighting's index, 0 where no sighting is held or no neighbour is configured there (R46). -/
def State.awaySite (s : State) (e : RosterEntry) : Byte :=
  (e.away.map fun a => s.hearing.neighbours[a.neighbour].site).getD 0

/-- LOST_DEADLINE: the HOMED entry is removed, counted lost, and written to the history pair (R46). -/
def execLostDeadline (i : Fin 64) (s : State) : Host.Outcome State Fault Refusal :=
  serve
    (fun s =>
      s.whenDue i (fun e => e.state == .homed && reached s.now e.lostDeadline)
        (fun e s => ((s.removeEntry i).record e.radio (s.awaySite e) .lost).bump .handsetsLost))
    s

/-- CALL_ACTIVE_DEADLINE: the call ends, and a HOMED entry is evaluated (R40). -/
def execCallActiveDeadline (i : Fin 64) (s : State) : Host.Outcome State Fault Refusal :=
  serve
    (fun s =>
      s.whenDue i (fun e => reached s.now e.callActive)
        (fun _ s => (s.updateEntry i fun e => { e with callActive := none }).evalAt i))
    s

/-- EMERGENCY_CLEAR: the emergency flag is cleared, and a HOMED entry is evaluated (R41). -/
def execEmergencyClear (i : Fin 64) (s : State) : Host.Outcome State Fault Refusal :=
  serve
    (fun s =>
      s.whenDue i (fun e => reached s.now e.emergency)
        (fun _ s => (s.updateEntry i fun e => { e with emergency := none }).evalAt i))
    s

/-- The end of the guard period of an entry is due (R28, R47). -/
def State.guardEnds (s : State) (e : RosterEntry) : Bool :=
  e.arrival.any fun a => a.guardRuns && s.now == after a.stamp (s.par .pingPongGuard * 100)

/-- GUARD_PERIOD_END: the guard period no longer runs, and a HOMED entry is evaluated (R28, R47). -/
def execGuardPeriodEnd (i : Fin 64) (s : State) : Host.Outcome State Fault Refusal :=
  serve
    (fun s =>
      s.whenDue i s.guardEnds
        (fun _ s =>
          (s.updateEntry i fun e => { e with arrival := e.arrival.map fun a => { a with guardRuns := false } }).evalAt i))
    s

/-- RESERVATION_DEADLINE: the EXPECTED entry is removed and a take expired counted (R51). -/
def execReservationDeadline (i : Fin 64) (s : State) : Host.Outcome State Fault Refusal :=
  serve
    (fun s =>
      s.whenDue i (fun e => e.state == .expected && reached s.now (e.reservation.map Reservation.deadline))
        (fun _ s => (s.removeEntry i).bump .takesExpired))
    s

/-- The dwell of the HOMED entry at index `i` has expired: the condition is tested with the dwell deadline removed, and a
departure opened toward the best neighbour, or the entry made ask-ready where the departure list is full (R103). -/
def State.dwellExpires (i : Fin 64) (e : RosterEntry) (s : State) : State :=
  let undwelt := s.updateEntry i fun e => { e with dwell := none }
  if s.candidate e then
    if (lowestFree s.nego.departures).isSome then
      match s.bestNeighbour e with
      | some (n, _) => undwelt.openDeparture i n
      | none => undwelt
    else undwelt.updateEntry i fun e => { e with askReady := true }
  else undwelt

/-- DWELL_EXPIRY (R103). -/
def execDwellExpiry (i : Fin 64) (s : State) : Host.Outcome State Fault Refusal :=
  serve
    (fun s => s.whenDue i (fun e => e.state == .homed && reached s.now e.dwell) fun e s => s.dwellExpires i e) s

/-- EXCLUSION_DEADLINE: the exclusion is removed, and a HOMED entry is evaluated (R109). -/
def execExclusionDeadline (i : Fin 64) (s : State) : Host.Outcome State Fault Refusal :=
  serve
    (fun s =>
      s.whenDue i (fun e => reached s.now (e.exclusion.map Exclusion.deadline))
        (fun _ s => (s.updateEntry i fun e => { e with exclusion := none }).evalAt i))
    s

end Sys2Proof.Machine
end

