-- ==== Sys2Proof/Machine/SteerEvents.lean ====
section
/-! DEFINITION. The steer port: TAKEN_STROBE (R141). -/

namespace Sys2Proof.Machine

/-- TAKEN_STROBE: one repeat of the presented order counted (R141). -/
def execTakenStrobe (s : State) : Host.Outcome State Fault Refusal :=
  serve (fun s => s.withSteer s.steer.strobe) s

end Sys2Proof.Machine
end

