-- ==== Sys2Proof/Machine/StrayEvents.lean ====
section
/-! DEFINITION. The deadlines of the Stray Tracker: STRAY_AGE_DEADLINE and HEARING_PERIOD_EXPIRY (R64, R66, R67). -/

namespace Sys2Proof.Machine

/-- STRAY_AGE_DEADLINE: the entry is removed (R64). -/
def execStrayAgeDeadline (j : Fin 32) (s : State) : Host.Outcome State Fault Refusal :=
  serve
    (fun s =>
      if reached s.now (s.strays.entries[j].map StrayEntry.ageDeadline) then
        s.withStrays { s.strays with entries := s.strays.entries.set j none }
      else s)
    s

/-- The hearing deadline advanced by the hearing period from the deadline just reached (R66). -/
def State.advanceHearing (s : State) : State :=
  s.withStrays
    { s.strays with hearingDeadline := s.strays.hearingDeadline.map fun d => after d (s.par .hearingPeriod * 10) }

/-- HEARING_PERIOD_EXPIRY: the deadline is advanced, and a notice composed where the conditions hold (R66, R67). -/
def execHearingPeriodExpiry (s : State) : Host.Outcome State Fault Refusal :=
  serve (fun s => if reached s.now s.strays.hearingDeadline then s.advanceHearing.composeNotice else s) s

end Sys2Proof.Machine
end

