-- ==== Sys2Proof/Machine/Dispatch.lean ====
section
/-! DEFINITION. The dispatch of a command to its meaning, one arm per row of the table. -/

namespace Sys2Proof.Machine

/-- The effect of a command on everything but the queue. -/
def exec (i : Instr) (s : State) : Host.Outcome State Fault Refusal :=
  match i with
  | .hardReset => Sys2Proof.Machine.execHardReset s
  | .resetRelease => Sys2Proof.Machine.execResetRelease s
  | .readComplete pulses image => Sys2Proof.Machine.execReadComplete pulses image s
  | .missingAcknowledge pulses point => Sys2Proof.Machine.execMissingAcknowledge pulses point s
  | .stuckDataLine => Sys2Proof.Machine.execStuckDataLine s
  | .loadDeadline progress clockHeld => Sys2Proof.Machine.execLoadDeadline progress clockHeld s
  | .tick => Sys2Proof.Machine.execTick s
  | .oldMark stamp => Sys2Proof.Machine.execOldMark stamp s
  | .reportFrameStart => Sys2Proof.Machine.execReportFrameStart s
  | .reportFrame frame => Sys2Proof.Machine.execReportFrame frame s
  | .lostDeadline k => Sys2Proof.Machine.execLostDeadline k s
  | .callActiveDeadline k => Sys2Proof.Machine.execCallActiveDeadline k s
  | .emergencyClear k => Sys2Proof.Machine.execEmergencyClear k s
  | .guardPeriodEnd k => Sys2Proof.Machine.execGuardPeriodEnd k s
  | .reservationDeadline k => Sys2Proof.Machine.execReservationDeadline k s
  | .dwellExpiry k => Sys2Proof.Machine.execDwellExpiry k s
  | .exclusionDeadline k => Sys2Proof.Machine.execExclusionDeadline k s
  | .answerDeadline p => Sys2Proof.Machine.execAnswerDeadline p s
  | .leaveDeadline p => Sys2Proof.Machine.execLeaveDeadline p s
  | .strayAgeDeadline j => Sys2Proof.Machine.execStrayAgeDeadline j s
  | .hearingPeriodExpiry => Sys2Proof.Machine.execHearingPeriodExpiry s
  | .silenceDeadline n => Sys2Proof.Machine.execSilenceDeadline n s
  | .hearingExpiry j => Sys2Proof.Machine.execHearingExpiry j s
  | .idleGapDeadline => Sys2Proof.Machine.execIdleGapDeadline s
  | .backoffEnd => Sys2Proof.Machine.execBackoffEnd s
  | .spacingEnd => Sys2Proof.Machine.execSpacingEnd s
  | .windowEnd => Sys2Proof.Machine.execWindowEnd s
  | .carrierOnset => Sys2Proof.Machine.execCarrierOnset s
  | .carrierFall bytes => Sys2Proof.Machine.execCarrierFall bytes s
  | .dispatch => Sys2Proof.Machine.execDispatch s
  | .sentReport => Sys2Proof.Machine.execSentReport s
  | .takenStrobe => Sys2Proof.Machine.execTakenStrobe s
  | .status part => Sys2Proof.Machine.execStatus part s
  | .peekAttention part => Sys2Proof.Machine.execPeekAttention part s
  | .takeAttention part => Sys2Proof.Machine.execTakeAttention part s
  | .selectTable table index part => Sys2Proof.Machine.execSelectTable table index part s
  | .readEntry part => Sys2Proof.Machine.execReadEntry part s
  | .fetchComplete => Sys2Proof.Machine.execFetchComplete s
  | .readCounters clear part => Sys2Proof.Machine.execReadCounters clear part s
  | .setHold mode part => Sys2Proof.Machine.execSetHold mode part s
  | .pin radio part => Sys2Proof.Machine.execPin radio part s
  | .unpin radio part => Sys2Proof.Machine.execUnpin radio part s
  | .listenOnly setting part => Sys2Proof.Machine.execListenOnly setting part s
  | .flush part => Sys2Proof.Machine.execFlush part s
  | .flushComplete => Sys2Proof.Machine.execFlushComplete s
  | .reload part => Sys2Proof.Machine.execReload part s
  | .unknownCommand code part => Sys2Proof.Machine.execUnknownCommand code part s

end Sys2Proof.Machine
end

