-- ==== Sys2Proof/Safety.lean ====
section
/-! DEFINITION. What counts as a lawful run and a lawful state, in the words the statements use: when the event of a command
can occur, which events a tick must wait for, the table of an evaluation, and the laws that the spec's rules say always
hold. -/

namespace Sys2Proof.Machine

/-! ### When an event can occur -/

/-- A part of a frame of the command `c` can be taken: MNT_SEL can fall only on a closed frame, and the arguments and the
rise belong to the frame that is open (R184). -/
def State.takesPart (s : State) (c : PortCommand) : FramePart → Bool
  | .command => s.port.frame.isNone
  | .arguments => s.port.frame.any fun f => f.code == c.code && f.args.isNone && !c.args.isEmpty
  | .rise clocked => s.port.frame.any (c.risesOn clocked)
  | .whole _ => s.port.frame.isNone

/-- The entry at roster index `i` satisfies `p`. -/
def State.entryHas (s : State) (i : Fin 64) (p : RosterEntry → Bool) : Bool := s.roster.entries[i].any p

/-- The event of a command can occur in the state: a deadline is one that something holds and that site time has reached, a
completion has work to complete, a level of a pin can change to the one it does not have, and while RESET_N is low only
the pins RESET_N and LNK_CD can change (R171, R182; log entry 2). -/
def State.canOccur (s : State) : Instr → Bool
  | .hardReset => true
  | .resetRelease => s.resetHeld
  | .carrierOnset => !s.link.lnkCd
  | .carrierFall _ => s.link.lnkCd
  | .readComplete _ _ => !s.resetHeld && s.loading
  | .missingAcknowledge _ _ => !s.resetHeld && s.loading
  | .stuckDataLine => !s.resetHeld && s.loading
  | .loadDeadline _ _ => !s.resetHeld && s.loader.opState == .loading && reached s.now s.loader.deadline
  | .tick => !s.resetHeld
  | .oldMark .lastSent => !s.resetHeld && s.link.lastSent.any fun m => elapsed s.now m.time == Config.oldAge
  | .oldMark .quietSince => !s.resetHeld && s.link.quietSince.any fun m => elapsed s.now m.time == Config.oldAge
  | .reportFrameStart => !s.resetHeld
  | .reportFrame _ => !s.resetHeld && s.intake.collecting
  | .lostDeadline i => !s.resetHeld && s.entryHas i fun e => e.state == .homed && reached s.now e.lostDeadline
  | .callActiveDeadline i => !s.resetHeld && s.entryHas i fun e => reached s.now e.callActive
  | .emergencyClear i => !s.resetHeld && s.entryHas i fun e => reached s.now e.emergency
  | .guardPeriodEnd i => !s.resetHeld && s.entryHas i s.guardEnds
  | .reservationDeadline i =>
    !s.resetHeld
      && s.entryHas i fun e => e.state == .expected && reached s.now (e.reservation.map Reservation.deadline)
  | .dwellExpiry i => !s.resetHeld && s.entryHas i fun e => e.state == .homed && reached s.now e.dwell
  | .exclusionDeadline i =>
    !s.resetHeld && s.entryHas i fun e => reached s.now (e.exclusion.map Exclusion.deadline)
  | .answerDeadline p =>
    !s.resetHeld && s.nego.departures[p].any fun d => d.phase == .asking && d.deadline == s.now
  | .leaveDeadline p =>
    !s.resetHeld && s.nego.departures[p].any fun d => d.phase == .leaving && d.deadline == s.now
  | .strayAgeDeadline j => !s.resetHeld && reached s.now (s.strays.entries[j].map StrayEntry.ageDeadline)
  | .hearingPeriodExpiry => !s.resetHeld && reached s.now s.strays.hearingDeadline
  | .silenceDeadline n =>
    !s.resetHeld && s.hearing.neighbours[n].state == .live && reached s.now s.hearing.neighbours[n].silence
  | .hearingExpiry j => !s.resetHeld && s.hearing.table[j].any fun e => e.expiry == s.now
  | .idleGapDeadline =>
    match s.link.txState with
    | .defer _ => !s.resetHeld && s.link.quietSince.any fun m => s.now == after m.time (s.par .idleGap)
    | _ => false
  | .backoffEnd => !s.resetHeld && s.link.txState == .backoff 0
  | .spacingEnd => !s.resetHeld && s.link.txState == .spacing s.now
  | .windowEnd => !s.resetHeld && reached s.now s.link.windowDeadline
  | .dispatch => !s.resetHeld && s.running && !s.link.rx.isEmpty
  | .sentReport => !s.resetHeld && s.link.txState == .sending
  | .takenStrobe => !s.resetHeld && s.steer.strRdy
  | .status part => !s.resetHeld && s.takesPart statusCommand part
  | .peekAttention part => !s.resetHeld && s.takesPart peekCommand part
  | .takeAttention part => !s.resetHeld && s.takesPart takeCommand part
  | .selectTable table index part => !s.resetHeld && s.takesPart (selectCommand table index) part
  | .readEntry part => !s.resetHeld && s.takesPart readCommand part
  | .fetchComplete => !s.resetHeld && s.port.fetch.isSome
  | .readCounters clear part => !s.resetHeld && s.takesPart (countersCommand clear) part
  | .setHold mode part => !s.resetHeld && s.takesPart (holdCommand mode) part
  | .pin radio part => !s.resetHeld && s.takesPart (pinCommand radio) part
  | .unpin radio part => !s.resetHeld && s.takesPart (unpinCommand radio) part
  | .listenOnly setting part => !s.resetHeld && s.takesPart (listenCommand setting) part
  | .flush part => !s.resetHeld && s.takesPart flushCommand part
  | .flushComplete => !s.resetHeld && s.loader.opState == .flushing
  | .reload part => !s.resetHeld && s.takesPart reloadCommand part
  | .unknownCommand code part => !s.resetHeld && s.takesPart (unknownPortCommand code) part

/-- The commands whose events fall at a site time and must be taken before the next tick: the deadlines (R182), the old marks
(R183), the keying of a count that has run out (R161), and the completions of a fetch and a flush (R190, R197). -/
def awaited : Instr → Bool
  | .loadDeadline _ _ | .oldMark _ | .lostDeadline _ | .callActiveDeadline _ | .emergencyClear _ | .guardPeriodEnd _
  | .reservationDeadline _ | .dwellExpiry _ | .exclusionDeadline _ | .answerDeadline _ | .leaveDeadline _
  | .strayAgeDeadline _ | .hearingPeriodExpiry | .silenceDeadline _ | .hearingExpiry _ | .idleGapDeadline | .backoffEnd
  | .spacingEnd | .windowEnd | .fetchComplete | .flushComplete => true
  | .hardReset | .resetRelease | .readComplete _ _ | .missingAcknowledge _ _ | .stuckDataLine | .tick | .reportFrameStart
  | .reportFrame _ | .carrierOnset | .carrierFall _ | .dispatch | .sentReport | .takenStrobe | .status _
  | .peekAttention _ | .takeAttention _ | .selectTable _ _ _ | .readEntry _ | .readCounters _ _ | .setHold _ _
  | .pin _ _ | .unpin _ _ | .listenOnly _ _ | .flush _ | .reload _ | .unknownCommand _ _ => false

/-- A tick may be taken: no event that falls at the present site time still waits. A sender that follows the spec queues
TICK only in such a state; TICK itself does not look (log entry 2). -/
def State.settled (s : State) : Prop := ∀ c, awaited c = true → s.canOccur c = false

/-! ### The table of an evaluation -/

/-- `after` is what evaluation in `s` makes of the HOMED entry `before`, by the four rows of R91's table; nothing but the
dwell deadline and the ask-ready flag may differ. -/
structure EvaluatedTo (s : State) (before after : RosterEntry) : Prop where
  others : after = { before with dwell := after.dwell, askReady := after.askReady }
  notMet : s.candidate before = false → after.dwell = none ∧ after.askReady = false
  starts : s.candidate before = true → before.dwell = none → before.askReady = false →
    after.dwell = some (s.due (s.dwellFor before)) ∧ after.askReady = false
  keeps : s.candidate before = true → before.dwell.isSome = true ∨ before.askReady = true →
    after.dwell = before.dwell ∧ after.askReady = before.askReady

/-- From `s` to `t` the roster changes at index `i` alone: the entry there becomes `before`, which is evaluated in `t` if it is
HOMED (R98, R100). -/
structure EntryBecomes (s t : State) (i : Fin 64) (before : RosterEntry) : Prop where
  pins : t.roster.pins = s.roster.pins
  others : ∀ j : Fin 64, j ≠ i → t.roster.entries[j] = s.roster.entries[j]
  entry : ∃ after, t.roster.entries[i] = some after
    ∧ (before.state = .homed → EvaluatedTo t before after) ∧ (before.state ≠ .homed → after = before)

/-- From `s` to `t` the HOMED entries of the radios that `p` names are evaluated in `t`, and the roster does not change
otherwise (R87, R98, R99). -/
structure Reevaluated (s t : State) (p : Radio → Prop) : Prop where
  pins : t.roster.pins = s.roster.pins
  free : ∀ i : Fin 64, s.roster.entries[i] = none → t.roster.entries[i] = none
  entry : ∀ (i : Fin 64) e, s.roster.entries[i] = some e → ∃ after, t.roster.entries[i] = some after
    ∧ (e.state = .homed ∧ p e.radio → EvaluatedTo t e after) ∧ (¬(e.state = .homed ∧ p e.radio) → after = e)

/-- From `s` to `t` the entry at index `i`, of the radio `r`, is removed, and every hearing entry of `r` with it; nothing else
of the two tables changes (R48, R85). -/
structure EntryRemoved (s t : State) (i : Fin 64) (r : Radio) : Prop where
  pins : t.roster.pins = s.roster.pins
  position : t.roster.entries[i] = none
  others : ∀ j : Fin 64, j ≠ i → t.roster.entries[j] = s.roster.entries[j]
  occupancy : t.occupancy + 1 = s.occupancy
  neighbours : t.hearing.neighbours = s.hearing.neighbours
  pruned : ∀ (j : Fin 128) e, s.hearing.table[j] = some e → t.hearing.table[j] = if e.radio = r then none else some e
  free : ∀ j : Fin 128, s.hearing.table[j] = none → t.hearing.table[j] = none

/-- No roster entry is ask-ready, so that the arbiter has nothing to choose from (R105, R106). -/
def State.noneAskReady (s : State) : Bool :=
  (List.finRange 64).all fun i => s.roster.entries[i].all fun e => !e.askReady

/-- From `s` to `t` the departure record of the radio `r` is removed, and the departure list does not change otherwise (R48,
R53). -/
structure RecordRemoved (s t : State) (r : Radio) : Prop where
  sequence : t.nego.sequence = s.nego.sequence
  removed : ∀ (p : Fin 4) d, s.nego.departures[p] = some d → t.nego.departures[p] = if d.radio = r then none else some d
  free : ∀ p : Fin 4, s.nego.departures[p] = none → t.nego.departures[p] = none

/-- An entry as a return to HOMED from a departure toward `target` leaves it: a new lost deadline, the target excluded, every
other field kept (R53). -/
def State.backHome (s : State) (target : Fin 8) (e : RosterEntry) : RosterEntry :=
  { e with
    state := .homed
    lostDeadline := some (s.now + BitVec.ofNat 32 (s.par .lostTime * 100))
    exclusion := some { neighbour := target, deadline := s.now + BitVec.ofNat 32 (s.par .declineHold * 100) }
    heardWhileLeaving := false
    dwell := none
    askReady := false }

/-- `t` is `u` after the departure arbiter has been taken, which does nothing where no entry of `s` is ask-ready (R106). -/
structure ArbiterFollows (s u t : State) : Prop where
  taken : t = u.arbiter
  idle : s.noneAskReady = true → t = u

/-- From `q` to `q'` the stray entry of the radio `r` is removed, and the stray list does not change otherwise (R65). -/
structure StrayRemoved (q q' : StrayTracker) (r : Radio) : Prop where
  cursor : q'.cursor = q.cursor
  deadline : q'.hearingDeadline = q.hearingDeadline
  removed : ∀ (j : Fin 32) e, q.entries[j] = some e → q'.entries[j] = if e.radio = r then none else some e
  free : ∀ j : Fin 32, q.entries[j] = none → q'.entries[j] = none

/-- From `q` to `q'` the order held for the radio `r` is removed and the others close up; a new head is presented, and an
unchanged one stays presented (R140, R142, R143). What STR_DAT holds with no order, and the count of presentations, are the
model's (log entry 4). -/
structure OrderRemoved (q q' : SteerQueue) (r : Radio) : Prop where
  orders : q'.orders = q.orders.filter fun x => x.radio != r
  admission : q'.admission = q.admission.filter fun x => x != r
  empty : q'.orders = [] → q'.strRdy = false ∧ q'.strDat = [] ∧ q'.presentations = q.presentations
  presented : ∀ head rest, q'.orders = head :: rest → q'.strRdy = true ∧ q'.strDat = head.bytes
    ∧ q'.presentations = if q.strRdy = true ∧ q.strDat = head.bytes then q.presentations else q.presentations + 1

/-- The steer queue after an entry has been created for the radio `r`: without its REFUSE order, where one is held, and as it
was where none is (R143). -/
structure RefuseRemoved (q q' : SteerQueue) (r : Radio) : Prop where
  held : (∃ x ∈ q.orders, x.radio = r ∧ x.kind = .refuse) → OrderRemoved q q' r
  none : (∀ x ∈ q.orders, x.radio = r → x.kind ≠ .refuse) → q' = q

/-- The state in which a dispatched frame `f`, with `rest` behind it in the receive queue, is handled: the frame has left the
queue; a configured neighbour that is its source is LIVE, with a new stamp and silence deadline; and where it was not LIVE,
every HOMED entry has been evaluated (R77, R99, R154; log entry 14). -/
def State.dispatched (s : State) (f : LinkFrame) (rest : List LinkFrame) : State :=
  let taken : State := { s with link := { s.link with rx := rest } }
  match s.hearing.neighbourOf f.source with
  | none => taken
  | some n =>
    let record : NeighbourRecord :=
      { s.hearing.neighbours[n] with
        state := .live, lastFrame := some s.now
        silence := some (s.now + BitVec.ofNat 32 (s.par .silenceTime * 100)) }
    let heard : State := { taken with hearing := { s.hearing with neighbours := s.hearing.neighbours.set n record } }
    if s.hearing.neighbours[n].state = .live then heard else heard.evalAll

/-- The position `j` of the hearing table `q` at which a pair of neighbour `n` and radio `r` is stored: the pair's own entry,
else the lowest free position, else the oldest entry, the lowest position of equal stamps (R82, R83). -/
structure PairPlace (now : Time) (n : Fin 8) (r : Radio) (q : Vector (Option HearingEntry) 128) (j : Fin 128) : Prop where
  own : ∀ (i : Fin 128) e, q[i] = some e → e.neighbour = n → e.radio = r →
    j ≤ i ∧ ∃ x, q[j] = some x ∧ x.neighbour = n ∧ x.radio = r
  free : (∀ (i : Fin 128) e, q[i] = some e → ¬(e.neighbour = n ∧ e.radio = r)) →
    ∀ i : Fin 128, q[i] = none → j ≤ i ∧ q[j] = none
  oldest : (∀ (i : Fin 128) e, q[i] = some e → ¬(e.neighbour = n ∧ e.radio = r)) → (∀ i : Fin 128, q[i] ≠ none) →
    ∃ old, q[j] = some old ∧ ∀ (i : Fin 128) x, q[i] = some x →
      (now - x.received).toNat ≤ (now - old.received).toNat
        ∧ ((now - x.received).toNat = (now - old.received).toNat → j ≤ i)

/-! ### Table records -/

/-- A number in `n` bytes, high byte first (R191). -/
def bigEndian (n v : Nat) : List Byte := (List.range n).map fun k => BitVec.ofNat 8 (v / 256 ^ (n - 1 - k))

/-- A record shows fields, each given by its first byte, its length and the number it holds. -/
def Shows (record : List Byte) (fields : List (Nat × Nat × Nat)) : Prop :=
  ∀ x ∈ fields, (record.drop x.1).take x.2.1 = bigEndian x.2.1 x.2.2

/-- The bytes of a record from `k` on are 0. -/
def ZeroFrom (k : Nat) (record : List Byte) : Prop := ∀ j, k ≤ j → byteAt record j = 0

/-- The ticks to a deadline, 0 where none is held (R191). -/
def State.ticksTo (s : State) (deadline : Option Time) : Nat :=
  match deadline with
  | some d => (d - s.now).toNat
  | none => 0

/-- What a roster record shows (00_scope.md, 7.4). The bytes of an arrival record, away sighting, exclusion or reservation
that the entry does not hold are not among them (log entry 3). -/
def State.rosterFields (s : State) (e : RosterEntry) : List (Nat × Nat × Nat) :=
  [(2, 3, e.radio.toNat),
    (5, 1, match e.state with | .homed => 0 | .asking => 1 | .leaving => 2 | .expected => 3),
    (6, 1, 1 + 2 * e.emergency.isSome.toNat + 4 * e.callActive.isSome.toNat + 8 * e.away.isSome.toNat
      + 16 * e.dwell.isSome.toNat + 32 * e.askReady.toNat + 64 * e.exclusion.isSome.toNat
      + 128 * (decide (e.radio ∈ s.roster.pins)).toNat),
    (7, 1, match e.count with | some c => c.toNat | none => 255),
    (8, 2, e.f), (10, 4, e.lastHeard.toNat),
    (18, 1, match e.arrival with | some a => a.origin.toNat | none => 0),
    (24, 2, s.ticksTo e.lostDeadline), (26, 2, s.ticksTo e.emergency), (28, 2, s.ticksTo e.callActive),
    (30, 2, s.ticksTo e.dwell), (33, 2, s.ticksTo (e.exclusion.map Exclusion.deadline)),
    (37, 2, s.ticksTo (e.reservation.map Reservation.deadline)), (39, 1, 0)]
  ++ (match e.arrival with | some a => [(14, 4, a.stamp.toNat)] | none => [])
  ++ (match e.away with | some a => [(19, 1, a.neighbour.val), (20, 4, a.stamp.toNat)] | none => [])
  ++ (match e.exclusion with | some x => [(32, 1, x.neighbour.val)] | none => [])
  ++ (match e.reservation with | some x => [(35, 1, x.fromSite.toNat), (36, 1, x.sequence.toNat)] | none => [])

/-- What a stray record shows (R191, table 1). -/
def State.strayFields (s : State) (e : StrayEntry) : List (Nat × Nat × Nat) :=
  [(2, 1, 1), (3, 3, e.radio.toNat), (6, 2, e.f), (8, 4, e.lastHeard.toNat), (12, 1, e.neighbour.val),
    (13, 1, e.reported.toNat), (14, 2, s.ticksTo (some e.ageDeadline))]

/-- What a hearing record shows (R191, table 2). -/
def State.hearingFields (s : State) (e : HearingEntry) : List (Nat × Nat × Nat) :=
  [(2, 1, 1), (3, 1, e.neighbour.val), (4, 3, e.radio.toNat), (7, 1, e.level), (8, 4, e.received.toNat),
    (12, 2, s.ticksTo (some e.expiry))]

/-- What a neighbour record shows (R191, table 3). The bytes of a last-frame stamp that is not held are not among them (log
entry 3). -/
def State.neighbourFields (s : State) (n : NeighbourRecord) : List (Nat × Nat × Nat) :=
  [(2, 1, 1), (3, 1, n.site.toNat), (4, 1, n.channel.toNat), (5, 1, (n.bias % 256).toNat), (6, 1, n.accept.toNat),
    (7, 1, match n.state with | .unknown => 0 | .live => 1 | .silent => 2), (8, 1, n.lastFrame.isSome.toNat),
    (13, 2, s.ticksTo n.silence)]
  ++ (match n.lastFrame with | some x => [(9, 4, x.toNat)] | none => [])

/-- What a departure record shows (R191, table 4). -/
def State.departureFields (s : State) (d : Departure) : List (Nat × Nat × Nat) :=
  [(2, 1, 1), (3, 3, d.radio.toNat), (6, 1, d.rosterIndex.val), (7, 1, d.target.val),
    (8, 1, s.hearing.neighbours[d.target].site.toNat), (9, 1, d.sequence.toNat),
    (10, 1, match d.phase with | .asking => 1 | .leaving => 2), (11, 1, d.attempt), (12, 2, s.ticksTo (some d.deadline)),
    (14, 1, d.ownLevel), (15, 1, d.neighbourLevel), (16, 1, d.emergency.toNat + 2 * d.rescue.toNat),
    (17, 1, (s.roster.entries[d.rosterIndex].any RosterEntry.heardWhileLeaving).toNat)]

/-- What a history record shows (R191, table 5). -/
def historyFields (x : History) : List (Nat × Nat × Nat) :=
  [(2, 1, 1), (3, 3, x.radio.toNat), (6, 1, x.toSite.toNat), (7, 4, x.stamp.toNat),
    (11, 1, match x.outcome with
      | .confirmed => 1 | .elsewhere => 2 | .unconfirmed => 3 | .lost => 4 | .superseded => 5)]

/-- What a steer order record shows (R191, table 6). -/
def orderFields (o : SteerOrder) : List (Nat × Nat × Nat) :=
  [(2, 1, 1), (3, 1, match o.kind with | .move => 1 | .refuse => 2), (4, 3, o.radio.toNat), (7, 1, o.channel.toNat),
    (8, 1, o.site.toNat), (9, 1, o.repeats)]

/-- A record of a position: it shows the fields of what the position holds and is 0 from byte `k` on, or, for a free
position, is 0 from byte 2 on (R191). -/
def Recorded {α : Type} (record : List Byte) (held : Option α) (fields : α → List (Nat × Nat × Nat)) (k : Nat) : Prop :=
  match held with
  | some x => Shows record (fields x) ∧ ZeroFrom k record
  | none => ZeroFrom 2 record

/-! ### Frames -/

/-- A report frame with the number `n` whose slot at position `p` holds `slot` and whose other slots are NONE (00_scope.md,
7.1). -/
def oneBurstFrame (n : Byte) (p : Fin 8) (slot : List Byte) : List Byte :=
  n :: (List.finRange 8).flatMap fun k => if k = p then slot else List.replicate 8 0x00

/-- The bytes collected pass tests 1 to 5 of R151: the length, the CRC, the kind, the body length of that kind, and a source
of 1 to 254. -/
def passesTests (bytes : List Byte) : Bool :=
  let body := (bytes.drop 4).take (byteAt bytes 3).toNat
  decide (6 ≤ bytes.length) && decide (bytes.length ≤ 31) && decide (bytes.length = 6 + (byteAt bytes 3).toNat)
    && crc16 (bytes.take (bytes.length - 2)) == wordAt bytes (bytes.length - 2)
    && (match (byteAt bytes 2).toNat with
      | 0x11 => decide ((byteAt body 0).toNat ≤ 6) && decide (body.length = 1 + 4 * (byteAt body 0).toNat)
      | 0x21 => decide (body.length = 7)
      | 0x22 => decide (body.length = 5)
      | 0x23 => decide (body.length = 5)
      | 0x31 => decide (body.length = 5)
      | _ => false)
    && byteAt bytes 1 != 0 && byteAt bytes 1 != 255

/-! ### Laws of the tables -/

/-- A path lock at rest: a valid radio and a NONE count of 0 to 2 (R6). -/
def LockLaw (s : State) : Prop :=
  ∀ (p : Fin 8) l, s.intake.locks[p] = some l → validRadio l.radio = true ∧ l.nones ≤ 2

/-- Every filtered level lies in 0 to 3200, every reported level in 0 to 200 (R18, R22, R80). -/
structure LevelLaw (s : State) : Prop where
  roster : ∀ (i : Fin 64) e, s.roster.entries[i] = some e → e.f ≤ 3200
  strays : ∀ (j : Fin 32) e, s.strays.entries[j] = some e → e.f ≤ 3200
  hearing : ∀ (j : Fin 128) e, s.hearing.table[j] = some e → e.level ≤ 200

/-- No radio stands twice in the roster, twice in the stray list, or in both (R34, R60). -/
structure RadioLaw (s : State) : Prop where
  roster : ∀ (i j : Fin 64) e f,
    s.roster.entries[i] = some e → s.roster.entries[j] = some f → e.radio = f.radio → i = j
  strays : ∀ (i j : Fin 32) e f,
    s.strays.entries[i] = some e → s.strays.entries[j] = some f → e.radio = f.radio → i = j
  apart : ∀ (i : Fin 64) (j : Fin 32) e f,
    s.roster.entries[i] = some e → s.strays.entries[j] = some f → e.radio ≠ f.radio

/-- The pin list holds at most eight radios, none repeated, all valid (R58). -/
structure PinLaw (s : State) : Prop where
  size : s.roster.pins.length ≤ Config.pinListSize
  nodup : s.roster.pins.Nodup
  valid : ∀ r ∈ s.roster.pins, validRadio r = true

/-- An entry holds the fields that its state holds, and no others (the table of R32). -/
structure FieldLaw (e : RosterEntry) : Prop where
  lost : e.lostDeadline.isSome = true ↔ e.state = .homed
  reservation : e.reservation.isSome = true ↔ e.state = .expected
  arrival : e.arrival.isSome = true ↔ e.state ≠ .expected
  away : e.away.isSome = true → e.state ≠ .expected
  exclusion : e.exclusion.isSome = true → e.state ≠ .expected
  dwell : e.dwell.isSome = true → e.state = .homed
  askReady : e.askReady = true → e.state = .homed ∧ e.dwell = none
  heard : e.heardWhileLeaving = true → e.state = .leaving

/-- The entry state that goes with a phase (R111). -/
def Phase.entryState : Phase → EntryState
  | .asking => .asking
  | .leaving => .leaving

/-- The roster and the departure list fit together: each record belongs to exactly one entry in ASKING or LEAVING, and each
such entry has exactly one record; every entry holds the fields of its state; no radio stands twice (R32, R34, R111). -/
structure DepartureLaw (s : State) : Prop where
  roster : ∀ (i j : Fin 64) e f,
    s.roster.entries[i] = some e → s.roster.entries[j] = some f → e.radio = f.radio → i = j
  fields : ∀ (i : Fin 64) e, s.roster.entries[i] = some e → FieldLaw e
  hasEntry : ∀ (p : Fin 4) d, s.nego.departures[p] = some d →
    ∃ e, s.roster.entries[d.rosterIndex] = some e ∧ e.radio = d.radio ∧ e.state = d.phase.entryState
  hasRecord : ∀ (i : Fin 64) e, s.roster.entries[i] = some e → e.state = .asking ∨ e.state = .leaving →
    ∃ (p : Fin 4) (d : Departure), s.nego.departures[p] = some d ∧ d.rosterIndex = i
  oneRecord : ∀ (p q : Fin 4) d d', s.nego.departures[p] = some d → s.nego.departures[q] = some d' →
    d.radio = d'.radio → p = q

/-- Nothing has been loaded while RESET_N is held low (R171). -/
def ResetLaw (s : State) : Prop := s.resetHeld = true → s.loaded = false

/-- Every hearing entry belongs to a LIVE neighbour and names a radio whose roster entry is HOMED, ASKING or LEAVING; at most
one per neighbour and radio; none before a load has succeeded (R80, R90). -/
structure HearingLaw (s : State) : Prop where
  reset : ResetLaw s
  unloaded : s.loaded = false → ∀ j : Fin 128, s.hearing.table[j] = none
  live : ∀ (j : Fin 128) e, s.hearing.table[j] = some e → s.hearing.neighbours[e.neighbour].state = .live
  rostered : ∀ (j : Fin 128) e, s.hearing.table[j] = some e →
    ∃ (i : Fin 64) (r : RosterEntry), s.roster.entries[i] = some r ∧ r.radio = e.radio ∧ r.state ≠ .expected
  onePerPair : ∀ (i j : Fin 128) e f, s.hearing.table[i] = some e → s.hearing.table[j] = some f →
    e.neighbour = f.neighbour → e.radio = f.radio → i = j

/-- The image copy of a part that has been loaded: 96 bytes that passed the checks on the site number, every parameter in its
range (R175, R177). -/
structure ImageLaw (s : State) : Prop where
  reset : ResetLaw s
  size : s.loaded = true → s.loader.image.length = Config.imageSize
  site : s.loaded = true → s.ownSite ≠ 0 ∧ s.ownSite ≠ 255
  ranges : s.loaded = true → ∀ p, (paramRange p).1 ≤ s.par p ∧ s.par p ≤ (paramRange p).2

/-- What is presented on the steer port is the head of the queue, and nothing while the queue is empty (R140). -/
def PresentationLaw (s : State) : Prop :=
  match s.steer.orders with
  | [] => s.steer.strRdy = false ∧ s.steer.strDat = []
  | head :: _ => s.steer.strRdy = true ∧ s.steer.strDat = head.bytes

/-- The law of the steer queue: at most eight orders, at most one per radio, every MOVE for a radio whose entry is LEAVING,
no REFUSE for a radio that has an entry, one to eight repeats remaining, and the order of admission kept for exactly the
radios that hold an order (R137, R143). -/
structure SteerLaw (s : State) : Prop where
  size : s.steer.orders.length ≤ Config.steerQueueSize
  onePerRadio : (s.steer.orders.map SteerOrder.radio).Nodup
  moves : ∀ o ∈ s.steer.orders, o.kind = .move →
    ∃ (i : Fin 64) (e : RosterEntry), s.roster.entries[i] = some e ∧ e.radio = o.radio ∧ e.state = .leaving
  refuses : ∀ o ∈ s.steer.orders, o.kind = .refuse →
    ∀ (i : Fin 64) e, s.roster.entries[i] = some e → e.radio ≠ o.radio
  repeats : ∀ o ∈ s.steer.orders, 1 ≤ o.repeats ∧ o.repeats ≤ 8
  admitted : s.steer.admission.Perm (s.steer.orders.map SteerOrder.radio)

/-! ### Laws of the site link -/

/-- The laws of the two queues and of the key: at most sixteen frames in each; every negotiation frame ahead of every HEARD
frame and at most one of these; the keyed frame is held exactly in SENDING; IDLE and MUTED with an empty transmit queue,
DEFER and BACKOFF with a frame that waits; MUTED exactly under listen-only, IDLE or MUTED outside RUNNING; and the
quiet-since stamp held exactly while, after a load, LNK_CD is low and the key is not asserted (R153, R155, R158). -/
structure LinkLaw (s : State) : Prop where
  reset : ResetLaw s
  rxSize : s.link.rx.length ≤ Config.linkQueueSize
  txSize : s.link.tx.length ≤ Config.linkQueueSize
  classes : s.link.tx.Pairwise fun a b => a.frame.isHeard = true → b.frame.isHeard = true
  oneHeard : (s.link.tx.filter fun x => x.frame.isHeard).length ≤ 1
  keyed : (s.link.tx.filter TxItem.keyed).length = if s.link.txState = .sending then 1 else 0
  silent : s.link.txState = .idle ∨ s.link.txState = .muted → s.link.tx = []
  waits : (∃ held, s.link.txState = .defer held) ∨ (∃ b, s.link.txState = .backoff b) → s.link.tx ≠ []
  muted : s.link.txState = .muted ↔ s.loaded = true ∧ s.port.listenOnly = true
  notRunning : s.running = false → s.link.txState = .idle ∨ s.link.txState = .muted
  quiet : s.link.quietSince.isSome = true ↔
    s.loaded = true ∧ s.link.lnkCd = false ∧ s.link.txState ≠ .sending

/-- From the first load on the backoff register is never 0 and W holds a value; W is always a power of two from 4 to 64, a
count is never above 63 and a held one never 0 (R158, R160, R163, R164). -/
structure BackoffLaw (s : State) : Prop where
  reset : ResetLaw s
  window : ∀ w, s.link.window = some w → w = 4 ∨ w = 8 ∨ w = 16 ∨ w = 32 ∨ w = 64
  seeded : s.loaded = true → s.link.register ≠ 0 ∧ s.link.window.isSome = true
  count : ∀ b, s.link.txState = .backoff b → b ≤ 63
  held : ∀ b, s.link.txState = .defer (some b) → 1 ≤ b ∧ b ≤ 63

/-- Every frame that waits or is being sent passes the tests of R151 at any other site (R148, R149, R151). -/
structure FrameLaw (s : State) : Prop where
  image : ImageLaw s
  accepted : ∀ x ∈ s.link.tx, ∀ other : Byte, other ≠ x.frame.source →
    judge other x.frame.bytes = .passed x.frame

/-! ### The maintenance port -/

/-- Every flag set in `f` is set in `g` (R187). -/
def Flags.within (f g : Flags) : Prop :=
  (f.configFault = true → g.configFault = true) ∧ (f.rxOverflow = true → g.rxOverflow = true)
    ∧ (f.reportGap = true → g.reportGap = true) ∧ (f.rosterFull = true → g.rosterFull = true)
    ∧ (f.siteClash = true → g.siteClash = true) ∧ (f.cmdDropped = true → g.cmdDropped = true)

/-- The port is READY, no frame is open and RESET_N is high, so that a command frame is served (R171, R184, R185). -/
def State.portReady (s : State) : Bool := !s.resetHeld && s.port.frame.isNone && !s.port.busy

/-- The port is BUSY exactly while a fetch is in flight or a flush runs, never both; a frame that was not refused and is not
STATUS finds the port READY to its end; the holder is a record of 40 bytes (R185, R190, R191, R196, R197). -/
structure PortLaw (s : State) : Prop where
  reset : ResetLaw s
  busy : s.port.busy = true ↔ s.port.fetch.isSome = true ∨ s.loader.opState = .flushing
  notBoth : ¬(s.port.fetch.isSome = true ∧ s.loader.opState = .flushing)
  frame : ∀ f, s.port.frame = some f → f.refused = false → f.code ≠ statusCode → s.port.busy = false
  holder : s.port.holder.length = Config.recordSize

end Sys2Proof.Machine
end

