-- ==== Sys2Proof/Certificates/Slice0/Obligations.lean ====
section
/-! DEFINITION. The statements about the part, for the provers, in the order of OBLIGATIONS.json: the machine as a whole, then
chapter by chapter, then the laws that every command keeps. -/

open Sys2Proof Sys2Proof.Machine

/-! ### The machine -/

/-- A step takes the command at the front of the queue and executes it with the rest of the queue; on an empty queue the part
idles (the model's choice, log entry 10). -/
def Obligations.StepExecutesFrontOfQueue : Prop :=
  (∀ (c : Instr) (rest : List Instr) (s : State), s.pending = c :: rest → step s = exec c { s with pending := rest })
    ∧ ∀ s : State, s.pending = [] → step s = .next s

/-- A command completes in every state exactly where its operands are ones that the ports can deliver, and leaves the rest of
the queue as it is; any other is refused as ill-formed, and nothing ever faults. The refusal, and completion where the event
cannot occur, are the model's choices (log entries 15 and 2). -/
def Obligations.WellFormedCommandsComplete : Prop :=
  ∀ (c : Instr) (s : State),
    (c.wellFormed = true → ∃ t, exec c s = .next t ∧ t.pending = s.pending)
      ∧ (c.wellFormed = false → exec c s = .refused .illFormed)

/-- A command whose event cannot occur in the state changes nothing: a deadline that nothing holds or that is not reached, a
completion without work, a frame part out of its place, a level the pin already has, and all but RESET_N and LNK_CD while
RESET_N is low (the model's choice, log entry 2; R171). -/
def Obligations.EventsThatCannotOccurChangeNothing : Prop :=
  ∀ (c : Instr) (s : State), c.wellFormed = true → s.canOccur c = false → exec c s = .next s

/-- Site time advances by exactly one at each tick and is set to 0 by a hard reset; no other command changes it (R181). A tick
also takes one from a backoff count (R161) and changes nothing else, and an old mark is set when 25,500 ticks have elapsed
from its stamp (R183). That a count brought to 0 is keyed by BACKOFF_END and not by the tick itself is the model's reading
(log entry 8). -/
def Obligations.SiteTimeAdvancesByTicksAlone : Prop :=
  (∀ (c : Instr) (s t : State), exec c s = .next t → c ≠ .hardReset → c ≠ .tick → t.now = s.now)
    ∧ (∀ s : State, ∃ t, exec .hardReset s = .next t ∧ t.now = 0)
    ∧ (∀ s : State, s.resetHeld = false → (∀ b, s.link.txState ≠ .backoff b) →
        exec .tick s = .next { s with now := s.now + 1 })
    ∧ (∀ (s : State) (b : Nat), s.resetHeld = false → s.link.txState = .backoff (b + 1) →
        exec .tick s = .next { s with now := s.now + 1, link := { s.link with txState := .backoff b } })
    ∧ (∀ (s : State) (m : MarkedStamp), s.resetHeld = false → s.link.lastSent = some m → (s.now - m.time).toNat = 25500 →
        exec (.oldMark .lastSent) s
          = .next { s with link := { s.link with lastSent := some { time := m.time, old := true } } })
    ∧ ∀ (s : State) (m : MarkedStamp), s.resetHeld = false → s.link.quietSince = some m → (s.now - m.time).toNat = 25500 →
        exec (.oldMark .quietSince) s
          = .next { s with link := { s.link with quietSince := some { time := m.time, old := true } } }

/-- An attention flag once set is cleared by nothing but TAKE ATTENTION and hard reset, and ATTN is asserted exactly while a
flag is set (R187). -/
def Obligations.FlagsStayUntilTaken : Prop :=
  (∀ (c : Instr) (s t : State), exec c s = .next t → c ≠ .hardReset → (∀ part, c ≠ .takeAttention part) →
      s.port.flags.within t.port.flags)
    ∧ ∀ s : State, s.attn = true ↔
        s.port.flags.configFault = true ∨ s.port.flags.rxOverflow = true ∨ s.port.flags.reportGap = true
          ∨ s.port.flags.rosterFull = true ∨ s.port.flags.siteClash = true ∨ s.port.flags.cmdDropped = true

/-- No event counter ever falls but by READ COUNTERS and hard reset: none wraps (R192). -/
def Obligations.CountersNeverWrap : Prop :=
  ∀ (c : Instr) (s t : State), exec c s = .next t → c ≠ .hardReset → (∀ clear part, c ≠ .readCounters clear part) →
    ∀ n : Fin 16, s.port.counters[n].toNat ≤ t.port.counters[n].toNat

/-! ### Hard reset and the configuration load -/

/-- HARD_RESET leaves every piece of state at the value after hard reset that its chapter gives (R6, R59, R74, R90, R135,
R147, R169, R171, R181, R198). That the level of the input LNK_CD is kept and that the backoff register is 0 while it is not
seeded are the model's choices (log entries 5 and 21). -/
def Obligations.HardResetRestoresResetValues : Prop :=
  ∀ s : State, ∃ t, exec .hardReset s = .next t
    ∧ (t.resetHeld = true ∧ t.now = 0 ∧ t.link.lnkCd = s.link.lnkCd)
    ∧ (t.intake.expectation = none ∧ t.intake.collecting = false ∧ ∀ p : Fin 8, t.intake.locks[p] = none)
    ∧ ((∀ i : Fin 64, t.roster.entries[i] = none) ∧ t.occupancy = 0 ∧ t.roster.pins = [])
    ∧ ((∀ j : Fin 32, t.strays.entries[j] = none) ∧ t.strays.cursor = 0 ∧ t.strays.hearingDeadline = none)
    ∧ ((∀ n : Fin 8, t.hearing.neighbours[n] =
          { site := 0, channel := 0, bias := 0, accept := false, state := .unknown, lastFrame := none, silence := none })
        ∧ ∀ j : Fin 128, t.hearing.table[j] = none)
    ∧ ((∀ p : Fin 4, t.nego.departures[p] = none) ∧ t.nego.sequence = 0 ∧ t.nego.last = none ∧ t.nego.previous = none)
    ∧ (t.steer.orders = [] ∧ t.steer.strRdy = false)
    ∧ (t.link.rx = [] ∧ t.link.tx = [] ∧ t.link.txState = .idle ∧ t.lnkKey = false ∧ t.link.quietSince = none
        ∧ t.link.lastSent = none ∧ t.link.windowDeadline = none ∧ t.link.window = none ∧ t.link.register = 0
        ∧ t.link.onsets = 0 ∧ t.link.collection = .idle)
    ∧ (t.loader.image = [] ∧ t.loader.deadline = none)
    ∧ (t.port.busy = false ∧ t.port.frame = none ∧ t.port.fetch = none ∧ t.port.cursorTable = 0 ∧ t.port.cursorIndex = 0
        ∧ t.port.holder = 0x00 :: 0xFF :: List.replicate 38 0x00 ∧ t.attn = false
        ∧ (∀ n : Fin 16, t.port.counters[n] = 0) ∧ t.port.hold = .opened ∧ t.port.listenOnly = false)

/-- A load begins on the release of RESET_N and on a RELOAD in CONFIG_FAULT: LOADING, the read buffer cleared, the load
deadline 100 ticks on, the image copy and everything else as it was (R171, R172, R180). -/
def Obligations.LoadBeginsOnReleaseAndReload : Prop :=
  (∀ s : State, s.resetHeld = true →
      exec .resetRelease s = .next
        { s with
          resetHeld := false
          loader :=
            { opState := .loading, buffer := [], image := s.loader.image, deadline := some (s.now + 100), bus := [] } })
    ∧ (∀ (s : State) (n : Nat), s.portReady = true → s.loader.opState = .configFault →
        exec (.reload (.whole n)) s = .next
          { s with
            loader :=
              { opState := .loading, buffer := [], image := s.loader.image, deadline := some (s.now + 100), bus := [] }
            port := { s.port with mntDo := List.replicate (n + 1) 0x00 } })
    ∧ ∀ (s : State) (n : Nat), s.portReady = true → s.loader.opState ≠ .configFault →
        exec (.reload (.whole n)) s = .next
          { s with
            port :=
              { s.port with
                mntDo := List.replicate (n + 1) 0x00, flags := { s.port.flags with cmdDropped := true } } }

/-- The image that has been read is taken exactly where all the checks of R175 pass on its bytes as read; where one fails, the
load ends in CONFIG_FAULT and none of the image is taken (R175, R176). -/
def Obligations.ImageChecksDecideTheLoad : Prop :=
  ∀ (s : State) (pulses : Nat) (image : List Byte), s.resetHeld = false → s.loading = true → pulses ≤ 9 →
    image.length = 96 →
    ∃ t, exec (.readComplete pulses image) s = .next t
      ∧ (t.loader.opState = .running ∨ t.loader.opState = .configFault ∧ t.loader.image = s.loader.image)
      ∧ (t.loader.opState = .running ↔
          byteAt image 0 = 0x54
            ∧ (image.map BitVec.toNat).sum % 256 = 0
            ∧ byteAt image 1 ≠ 0 ∧ byteAt image 1 ≠ 255
            ∧ ∀ n < 8, byteAt image (4 + 4 * n) ≠ 0 →
                byteAt image (4 + 4 * n) ≠ 255 ∧ byteAt image (4 + 4 * n) ≠ byteAt image 1
                  ∧ (∀ m < 8, m ≠ n → byteAt image (4 + 4 * m) ≠ byteAt image (4 + 4 * n))
                  ∧ byteAt image (5 + 4 * n) ≠ 0 ∧ byteAt image (5 + 4 * n) ≠ byteAt image 2)

/-- A load whose checks all pass: the image copy with its parameters clamped, the neighbour records UNKNOWN, listen-only, the
backoff register, W, the deadlines and the transmitter as the image gives them, and RUNNING; hold mode, pin list, flags
and counters are not touched (R163, R164, R165, R169, R177, R178, R179). -/
def Obligations.PassingImageEntersRunning : Prop :=
  ∀ (s : State) (pulses : Nat) (image : List Byte), s.resetHeld = false → s.loading = true → pulses ≤ 9 →
    image.length = 96 → imagePasses image = true →
    ∃ t, exec (.readComplete pulses image) s = .next t
      ∧ (t.loader.opState = .running ∧ t.loader.deadline = none ∧ t.loader.image.length = 96)
      ∧ (∀ p, p ≠ .initialWindow →
          t.par p = max (paramRange p).1 (min (byteAt image (paramByte p)).toNat (paramRange p).2))
      ∧ (∃ k, 2 ≤ k ∧ k ≤ 6 ∧ t.par .initialWindow = 2 ^ k
          ∧ (k = 2 ∨ 2 ^ k ≤ (byteAt image 71).toNat) ∧ (k = 6 ∨ (byteAt image 71).toNat < 2 ^ (k + 1)))
      ∧ (∀ k < 96, k < 52 ∨ 77 < k → byteAt t.loader.image k = byteAt image k)
      ∧ (∀ n : Fin 8, t.hearing.neighbours[n] =
          if byteAt image (4 + 4 * n.val) = 0 then
            { site := 0, channel := 0, bias := 0, accept := false, state := .unknown, lastFrame := none, silence := none }
          else
            { site := byteAt image (4 + 4 * n.val), channel := byteAt image (5 + 4 * n.val)
              bias := ((byteAt image (6 + 4 * n.val)).setWidth 5).toInt
              accept := (byteAt image (7 + 4 * n.val)).getLsbD 0
              state := .unknown, lastFrame := none, silence := none })
      ∧ t.hearing.table = s.hearing.table
      ∧ t.port = { s.port with listenOnly := (byteAt image 3).getLsbD 0 }
      ∧ (t.link.register = BitVec.ofNat 16 ((byteAt image 1).toNat * 257)
          ∧ t.link.window = some (t.par .initialWindow)
          ∧ t.link.windowDeadline = some (s.now + 100) ∧ t.link.onsets = 0
          ∧ (s.link.lnkCd = false → t.link.quietSince = some { time := s.now, old := false })
          ∧ (s.link.lnkCd = true → t.link.quietSince = s.link.quietSince)
          ∧ t.link.txState = (if (byteAt image 3).getLsbD 0 then .muted else .idle)
          ∧ t.link.rx = s.link.rx ∧ t.link.tx = s.link.tx ∧ t.link.lastSent = s.link.lastSent)
      ∧ t.strays =
          { s.strays with hearingDeadline := some (s.now + BitVec.ofNat 32 (t.par .hearingPeriod * 10)) }
      ∧ (t.roster = s.roster ∧ t.nego = s.nego ∧ t.steer = s.steer ∧ t.intake = s.intake ∧ t.now = s.now
          ∧ t.resetHeld = false)

/-- Every way in which a load fails ends it in CONFIG_FAULT: the flag is set and ATTN asserted, the load deadline removed, and
the image copy and everything that a successful load sets left as it was; a stop condition ends the bus where the bus
allows one (R174, R176; for the stuck and the held bus the model's reading, log entry 6). -/
def Obligations.FailedLoadEntersConfigFault : Prop :=
  ∀ (s : State) (c : Instr), s.resetHeld = false → s.loading = true → c.wellFormed = true →
    ((∃ pulses image, c = .readComplete pulses image ∧ imagePasses image = false)
      ∨ (∃ pulses point, c = .missingAcknowledge pulses point) ∨ c = .stuckDataLine
      ∨ ∃ progress held, c = .loadDeadline progress held ∧ s.loader.deadline = some s.now) →
    ∃ t, exec c s = .next t
      ∧ t.loader.opState = .configFault ∧ t.loader.deadline = none ∧ t.loader.image = s.loader.image
      ∧ t.port = { s.port with flags := { s.port.flags with configFault := true } } ∧ t.attn = true
      ∧ (t.loader.bus.getLast? = some .stop ↔ c ≠ .stuckDataLine ∧ ∀ progress, c ≠ .loadDeadline progress true)
      ∧ t = { s with loader := t.loader, port := t.port }

/-! ### Report frames -/

/-- A pulse on RPT_FS begins a collection. A frame taken outside RUNNING, or with a number equal to or 128 to 255 ahead of the
last accepted one, ends the collection and has no other effect; one 2 to 127 ahead is read exactly as one in sequence with
all path locks FREE, the gap counted in counter 10 and REPORT_GAP set (R1, R2, R3, R4). -/
def Obligations.ReportFramesAreCheckedByNumber : Prop :=
  (∀ s : State, s.resetHeld = false →
      exec .reportFrameStart s = .next { s with intake := { s.intake with collecting := true } })
    ∧ ∀ (s : State) (frame : List Byte), s.resetHeld = false → s.intake.collecting = true → frame.length = 65 →
      (s.loader.opState ≠ .running →
          exec (.reportFrame frame) s = .next { s with intake := { s.intake with collecting := false } })
        ∧ ∀ last : Byte, s.loader.opState = .running → s.intake.expectation = some last →
          let ahead := ((byteAt frame 0).toNat + 256 - last.toNat) % 256
          (ahead = 0 ∨ 128 ≤ ahead →
              exec (.reportFrame frame) s = .next { s with intake := { s.intake with collecting := false } })
            ∧ (2 ≤ ahead → ahead ≤ 127 →
              exec (.reportFrame frame) s =
                exec (.reportFrame frame)
                  { s with
                    intake :=
                      { s.intake with expectation := some (byteAt frame 0 - 1), locks := Vector.replicate 8 none }
                    port :=
                      { s.port with
                        flags := { s.port.flags with reportGap := true }
                        counters := s.port.counters.set 9 (saturate s.port.counters[9]) } })

/-- The eight rows of the table of R6: what a slot does to a FREE and to a LOCKED path, for which radio an observation is
formed, and what is counted (R7 to R13). -/
def Obligations.SlotsActOnPathLocksAsTabled : Prop :=
  ∀ (r : Radio) (l : PathLock), l.nones ≤ 2 →
    let valid : Prop := r ≠ 0 ∧ r ≠ 16777215
    let counted : Option PathLock := if l.nones = 2 then none else some { radio := l.radio, nones := l.nones + 1 }
    let kept : Option PathLock := some { radio := l.radio, nones := 0 }
    (slotEffect .silent r none = ⟨none, none, false, false⟩ ∧ slotEffect .silent r (some l) = ⟨counted, none, false, false⟩)
      ∧ (slotEffect .unknown r none = ⟨none, none, true, false⟩
        ∧ slotEffect .unknown r (some l) = ⟨counted, none, true, false⟩)
      ∧ (∀ kind, kind = .header ∨ kind = .emergency → ∀ lock,
          (valid → slotEffect (.burst kind) r lock = ⟨some { radio := r, nones := 0 }, some r, false, false⟩)
            ∧ (¬valid → slotEffect (.burst kind) r lock = ⟨none, none, false, true⟩))
      ∧ (slotEffect (.burst .voice) r none = ⟨none, none, true, false⟩
        ∧ slotEffect (.burst .voice) r (some l) = ⟨kept, some l.radio, false, false⟩)
      ∧ (slotEffect (.burst .terminator) r none = ⟨none, none, true, false⟩
        ∧ slotEffect (.burst .terminator) r (some l) = ⟨none, some l.radio, false, false⟩)
      ∧ ∀ kind, kind = .registration ∨ kind = .data →
          (valid → slotEffect (.burst kind) r none = ⟨none, some r, false, false⟩
            ∧ slotEffect (.burst kind) r (some l) = ⟨kept, some r, false, false⟩)
            ∧ (¬valid → slotEffect (.burst kind) r none = ⟨none, none, false, true⟩
              ∧ slotEffect (.burst kind) r (some l) = ⟨kept, none, false, true⟩)

/-- A frame accepted in sequence on FREE paths, with one burst that names its radio and NONE elsewhere: the collection ends,
the number is recorded, the path is locked by a HEADER or an EMERGENCY, and the observation with the fields of the slot
record is delivered where its radio is admitted, else counted as non-admitted. On any paths, a frame in sequence is its eight
slots in position order: each sets its path lock as its kind says, is counted as an orphan or for its invalid radio, and has
its observation delivered or counted before the next is read, so that an entry is evaluated slot by slot and not once for the
frame (the model's reading, log entry 9). A TERMINATOR of a radio without an entry does nothing on an own path. A radio is
admitted where its top 24 − e bits are those of the base of a used range, or where all four exponents are 255, unused;
an exponent of 24 to 254 is taken as 23 (R2, R5, R7 to R15, R18, R35). -/
def Obligations.BurstIsDeliveredOrCounted : Prop :=
  (∀ (s : State) (n : Byte) (p : Fin 8) (code : Byte) (kind : ObsKind) (r : Radio) (level quality origin count : Byte),
    s.resetHeld = false → s.intake.collecting = true → s.loader.opState = .running →
    s.intake.expectation = none ∨ s.intake.expectation = some (n - 1) → s.intake.locks = Vector.replicate 8 none →
    (code, kind) ∈ [(1, ObsKind.registration), (2, ObsKind.header), (5, ObsKind.data), (6, ObsKind.emergency)] →
    r ≠ 0 → r ≠ 16777215 →
    let locked := kind = .header ∨ kind = .emergency
    let taken : State :=
      { s with
        intake :=
          { collecting := false, expectation := some n
            locks := if locked then (Vector.replicate 8 none).set p (some { radio := r, nones := 0 })
              else Vector.replicate 8 none } }
    let o : Observation :=
      { radio := r, kind := kind, level := min level.toNat 200, quality := (quality.setWidth 3).toFin, position := p,
        neighbour := ((quality >>> 4).setWidth 3).toFin, origin := origin,
        count := if count.toNat ≤ 15 then some (count.setWidth 4) else none }
    exec (.reportFrame (oneBurstFrame n p ([code] ++ radioBytes r ++ [level, quality, origin, count]))) s =
      .next
        (if admitted s.loader.image r then taken.deliver o
        else
          { taken with
            port :=
              { s.port with
                counters :=
                  s.port.counters.set 7 (saturate s.port.counters[7]) } }))
    ∧ (∀ (s : State) (frame : List Byte),
      s.resetHeld = false → s.intake.collecting = true → s.loader.opState = .running → frame.length = 65 →
      s.intake.expectation = none ∨ s.intake.expectation = some (byteAt frame 0 - 1) →
      ∃ u : Fin 9 → State,
        u 0 = { s with intake := { s.intake with collecting := false, expectation := some (byteAt frame 0) } }
          ∧ exec (.reportFrame frame) s = .next (u 8)
          ∧ ∀ p : Fin 8,
            let slot (k : Nat) : Byte := byteAt frame (1 + 8 * p.val + k)
            let named : Radio := slot 1 ++ slot 2 ++ slot 3
            let kind : SlotKind :=
              match (slot 0).toNat with
              | 0 => .silent
              | 1 => .burst .registration
              | 2 => .burst .header
              | 3 => .burst .voice
              | 4 => .burst .terminator
              | 5 => .burst .data
              | 6 => .burst .emergency
              | _ => .unknown
            let before := u p.castSucc
            let effect := slotEffect kind named before.intake.locks[p]
            let counters := before.port.counters
            let counted : State :=
              { before with
                intake := { before.intake with locks := before.intake.locks.set p effect.lock }
                port :=
                  { before.port with
                    counters :=
                      if effect.orphan then counters.set 8 (saturate counters[8])
                      else if effect.invalid then counters.set 7 (saturate counters[7])
                      else counters } }
            (effect.observed = none → u p.succ = counted)
              ∧ ∀ (r : Radio) (k : ObsKind), effect.observed = some r → kind = .burst k →
                let o : Observation :=
                  { radio := r, kind := k, level := min (slot 4).toNat 200, quality := ((slot 5).setWidth 3).toFin
                    position := p, neighbour := ((slot 5 >>> 4).setWidth 3).toFin, origin := slot 6
                    count := if (slot 7).toNat ≤ 15 then some ((slot 7).setWidth 4) else none }
                u p.succ =
                  if admitted s.loader.image r then counted.deliver o
                  else
                    { counted with
                      port := { before.port with counters := counters.set 7 (saturate counters[7]) } })
    ∧ (∀ (s : State) (o : Observation), s.rosterIndex o.radio = none → o.position.val < 6 → o.kind = .terminator →
      s.deliver o = s)
    ∧ ∀ (image : List Byte) (r : Radio),
      let exponent (k : Nat) : Nat := (byteAt image (39 + 4 * k)).toNat
      let base (k : Nat) : Radio := byteAt image (36 + 4 * k) ++ byteAt image (37 + 4 * k) ++ byteAt image (38 + 4 * k)
      admitted image r = true ↔
        (∃ k < 4, exponent k ≠ 255 ∧ r.toNat / 2 ^ min (exponent k) 23 = (base k).toNat / 2 ^ min (exponent k) 23)
          ∨ ∀ k < 4, exponent k = 255

/-- An own-path observation of a radio without an entry that occupancy allows creates a HOMED entry at the lowest free index
with the values of R36, removes the radio's stray entry and REFUSE order, announces HOMED to all sites, and evaluates the
entry (R34, R35, R36, R40, R41, R65, R143). What STR_DAT holds with no order and the count of presentations are the model's choice (log entry 4). -/
def Obligations.HomingCreatesEntry : Prop :=
  ∀ (s : State) (o : Observation) (i : Fin 64),
    s.rosterIndex o.radio = none → o.position.val < 6 → o.kind ≠ .terminator →
    s.occupancy < (if o.kind = .emergency then 64 else 60) → lowestFree s.roster.entries = some i →
    let origin : Byte := if o.kind = .registration then o.origin else 0
    let before : RosterEntry :=
      { radio := o.radio, state := .homed, f := 16 * (o.level - penalty o.quality), lastHeard := s.now
        lostDeadline := some (s.now + BitVec.ofNat 32 (s.par .lostTime * 100))
        count := if o.kind = .registration then o.count else none
        arrival := some ⟨origin, s.now, origin != 0 && s.par .pingPongGuard != 0⟩
        emergency :=
          if o.kind = .emergency then some (s.now + BitVec.ofNat 32 (s.par .emergencyClear * 100)) else none
        callActive :=
          if o.kind = .header ∨ o.kind = .voice ∨ o.kind = .emergency then
            some (s.now + BitVec.ofNat 32 (s.par .callHang * 10))
          else none
        away := none, dwell := none, askReady := false, exclusion := none, heardWhileLeaving := false
        reservation := none }
    let announced := s.offer 0 .homed (radioBytes o.radio ++ [countByte before.count, origin])
    let t := s.deliver o
    EntryBecomes s t i before
      ∧ t.occupancy = s.occupancy + 1
      ∧ StrayRemoved s.strays t.strays o.radio
      ∧ RefuseRemoved s.steer t.steer o.radio
      ∧ t = { s with roster := t.roster, strays := t.strays, steer := t.steer, link := announced.link, port := announced.port }

/-- An own-path observation of a radio without an entry that occupancy does not allow: no entry, counter 7 and ROSTER_FULL, and
a REFUSE order kept as it is where one is held, admitted at the tail where there is room, and else discarded and counted in
counter 13 (R34, R35, R37, R139, R145). -/
def Obligations.HomingRefusedOffersRefuse : Prop :=
  ∀ (s : State) (o : Observation),
    s.rosterIndex o.radio = none → o.position.val < 6 → o.kind ≠ .terminator →
    (if o.kind = .emergency then 64 else 60) ≤ s.occupancy →
    let held := s.steer.orders.any fun x => x.radio == o.radio
    let full : Prop := held = false ∧ 8 ≤ s.steer.orders.length
    let t := s.deliver o
    (t.port.counters[6] = saturate s.port.counters[6])
      ∧ (full → t.port.counters[12] = saturate s.port.counters[12])
      ∧ (¬full → t.port.counters[12] = s.port.counters[12])
      ∧ (∀ n : Fin 16, n ≠ 6 → n ≠ 12 → t.port.counters[n] = s.port.counters[n])
      ∧ t.port = { s.port with flags := { s.port.flags with rosterFull := true }, counters := t.port.counters }
      ∧ (held = true ∨ 8 ≤ s.steer.orders.length → t.steer = s.steer)
      ∧ (held = false → s.steer.orders.length < 8 → ∃ x : SteerOrder,
          t.steer.orders = s.steer.orders ++ [x] ∧ x.kind = .refuse ∧ x.radio = o.radio ∧ x.repeats = s.par .steerRepeats
            ∧ (∀ e, s.strays.entryOf o.radio = some e →
                let n := s.hearing.neighbours[e.neighbour]
                (x.channel, x.site) =
                  if n.site ≠ 0 ∧ n.state = .live ∧ n.accept = true then (n.channel, n.site) else (0, 0))
            ∧ (s.strays.entryOf o.radio = none → x.channel = 0 ∧ x.site = 0))
      ∧ t = { s with steer := t.steer, port := t.port }

/-- A rostered handset heard: on an own path a HOMED entry is refreshed and evaluated and an ASKING one refreshed; on a monitor
path a HOMED entry takes an away sighting that may pull its lost deadline forward, an ASKING or LEAVING one the sighting
alone, and an EXPECTED one a filter step alone. A radio without an entry heard on a monitor path is a stray: its entry takes
a filter step, a new stamp and age deadline, the neighbour index and a clear reported flag; without one it is created at
the lowest free index; and in a full list it replaces the weakest entry where its effective level is greater, and is
discarded where it is not (R38, R39, R40, R41, R44, R45, R61, R62, R63). -/
def Obligations.RosteredHandsetIsHeard : Prop :=
  (∀ (s : State) (o : Observation) (i : Fin 64) (e : RosterEntry),
    s.rosterIndex o.radio = some i → s.roster.entries[i] = some e →
    let t := s.deliver o
    let stepped := observeF (s.par .filterShift) (s.par .fadeLimit) e.f o.level o.quality
    let refreshed : RosterEntry :=
      { e with
        f := stepped
        lastHeard := s.now
        away := none
        count := if o.kind = .registration then o.count else e.count
        callActive :=
          if o.kind = .registration ∨ o.kind = .data then e.callActive
          else some (s.now + BitVec.ofNat 32 (s.par .callHang * 10))
        emergency :=
          if o.kind = .emergency then some (s.now + BitVec.ofNat 32 (s.par .emergencyClear * 100)) else e.emergency }
    let limit := s.par .awayLoss * 100
    (o.position.val < 6 → e.state = .homed →
        EntryBecomes s t i
            { refreshed with lostDeadline := some (s.now + BitVec.ofNat 32 (s.par .lostTime * 100)) }
          ∧ t = { s with roster := t.roster })
      ∧ (o.position.val < 6 → e.state = .asking → EntryBecomes s t i refreshed ∧ t = { s with roster := t.roster })
      ∧ (6 ≤ o.position.val → e.state ≠ .expected →
          t.roster.entries[i] = some
              { e with
                away := some { neighbour := o.neighbour, stamp := s.now }
                lostDeadline :=
                  if e.state = .homed then
                    e.lostDeadline.map fun d => if limit < (d - s.now).toNat then s.now + BitVec.ofNat 32 limit else d
                  else e.lostDeadline }
            ∧ (∀ j : Fin 64, j ≠ i → t.roster.entries[j] = s.roster.entries[j]) ∧ t.roster.pins = s.roster.pins
            ∧ t = { s with roster := t.roster })
      ∧ (6 ≤ o.position.val → e.state = .expected →
          EntryBecomes s t i { e with f := stepped } ∧ t = { s with roster := t.roster }))
    ∧ ∀ (s : State) (o : Observation), s.rosterIndex o.radio = none → 6 ≤ o.position.val →
      let level := o.level - penalty o.quality
      let ageDeadline := s.now + BitVec.ofNat 32 (s.par .strayAge * 100)
      let fresh : StrayEntry :=
        { radio := o.radio, f := 16 * level, lastHeard := s.now, ageDeadline := ageDeadline, neighbour := o.neighbour
          reported := false }
      let stored (j : Fin 32) (x : StrayEntry) : State :=
        { s with strays := { s.strays with entries := s.strays.entries.set j (some x) } }
      (∀ j e, s.strays.indexOf o.radio = some j → s.strays.entries[j] = some e →
          s.deliver o = stored j
            { e with
              f := observeF (s.par .filterShift) (s.par .fadeLimit) e.f o.level o.quality
              lastHeard := s.now, ageDeadline := ageDeadline, neighbour := o.neighbour, reported := false })
        ∧ (s.strays.indexOf o.radio = none → ∀ j, lowestFree s.strays.entries = some j → s.deliver o = stored j fresh)
        ∧ (s.strays.indexOf o.radio = none → lowestFree s.strays.entries = none →
            ∀ j weakest, s.strays.entries[j] = some weakest →
              (∀ k x, s.strays.entries[k] = some x →
                (weakest.f + 8) / 16 ≤ (x.f + 8) / 16
                  ∧ ((weakest.f + 8) / 16 = (x.f + 8) / 16 →
                    (s.now - x.lastHeard).toNat ≤ (s.now - weakest.lastHeard).toNat
                      ∧ ((s.now - x.lastHeard).toNat = (s.now - weakest.lastHeard).toNat → j ≤ k))) →
              s.deliver o = if (weakest.f + 8) / 16 < level then stored j fresh else s)

/-- The first own-path observation of a reservation is the handset's arrival: the EXPECTED entry becomes HOMED with the values
of R43, whatever the kind, is announced to all sites and evaluated; occupancy is not tested (R40, R41, R43, R129). -/
def Obligations.ArrivalTurnsReservationHomed : Prop :=
  ∀ (s : State) (o : Observation) (i : Fin 64) (e : RosterEntry) (x : Reservation),
    s.rosterIndex o.radio = some i → s.roster.entries[i] = some e → e.state = .expected → e.reservation = some x →
    o.position.val < 6 →
    let origin : Byte := if o.kind = .registration ∧ o.origin ≠ 0 then o.origin else x.fromSite
    let before : RosterEntry :=
      { radio := e.radio, state := .homed
        f := observeF (s.par .filterShift) (s.par .fadeLimit) e.f o.level o.quality
        lastHeard := s.now
        lostDeadline := some (s.now + BitVec.ofNat 32 (s.par .lostTime * 100))
        count := if o.kind = .registration then o.count else e.count
        arrival := some ⟨origin, s.now, origin != 0 && s.par .pingPongGuard != 0⟩
        emergency :=
          if o.kind = .emergency then some (s.now + BitVec.ofNat 32 (s.par .emergencyClear * 100)) else e.emergency
        callActive :=
          if o.kind = .registration ∨ o.kind = .data then e.callActive
          else some (s.now + BitVec.ofNat 32 (s.par .callHang * 10))
        away := none, dwell := none, askReady := false, exclusion := none, heardWhileLeaving := false
        reservation := none }
    let announced := s.offer 0 .homed (radioBytes e.radio ++ [countByte before.count, origin])
    let t := s.deliver o
    EntryBecomes s t i before ∧ t = { s with roster := t.roster, link := announced.link, port := announced.port }

/-- An own-path observation of a LEAVING entry: a REGISTRATION or an EMERGENCY returns the entry to HOMED with the target
excluded, removes the record and the order, counts a steer failed for a REGISTRATION alone, and then takes the arbiter; any
other kind refreshes the entry and sets the heard-while-leaving mark (R42, R53, R106, R123, R142). -/
def Obligations.LeavingHandsetHeardHere : Prop :=
  ∀ (s : State) (o : Observation) (i : Fin 64) (e : RosterEntry) (p : Fin 4) (d : Departure),
    s.rosterIndex o.radio = some i → s.roster.entries[i] = some e → e.radio = o.radio → e.state = .leaving →
    s.departureIndex o.radio = some p → s.nego.departures[p] = some d → d.rosterIndex = i → d.phase = .leaving →
    d.radio = o.radio → o.position.val < 6 →
    let t := s.deliver o
    let refreshed : RosterEntry :=
      { e with
        f := observeF (s.par .filterShift) (s.par .fadeLimit) e.f o.level o.quality
        lastHeard := s.now
        away := none
        count := if o.kind = .registration then o.count else e.count
        callActive :=
          if o.kind = .registration ∨ o.kind = .data then e.callActive
          else some (s.now + BitVec.ofNat 32 (s.par .callHang * 10))
        emergency :=
          if o.kind = .emergency then some (s.now + BitVec.ofNat 32 (s.par .emergencyClear * 100)) else e.emergency }
    (o.kind ≠ .registration → o.kind ≠ .emergency →
        EntryBecomes s t i { refreshed with heardWhileLeaving := true } ∧ t = { s with roster := t.roster })
      ∧ (o.kind = .registration ∨ o.kind = .emergency →
          ∃ u, ArbiterFollows s u t
            ∧ EntryBecomes s u i (s.backHome d.target refreshed) ∧ RecordRemoved s u o.radio
            ∧ u.steer = s.steer.remove o.radio
            ∧ u.port = (if o.kind = .registration then s.port.bump .steerFailed else s.port)
            ∧ u.nego.last = s.nego.last ∧ u.nego.previous = s.nego.previous
            ∧ u = { s with roster := u.roster, nego := u.nego, steer := u.steer, port := u.port })

/-! ### Levels and evaluation -/

/-- A sample is charged the penalty of its quality class, not below 0 (R19), and, where the record holds F, is raised to own
level − fade limit where it lies below that (R20). One filter step moves F toward the target Le × 16 by the difference divided by 2^s truncated, but by at least one while
they differ, never past the target (R22). The effective hysteresis is doubled before it is halved, and lies in 0 to 62 (the
table of R29). -/
def Obligations.FilterAndHysteresisFollowTheirRules : Prop :=
  (∀ (v : Nat) (q : Fin 8),
      penalty q = [0, 0, 2, 4, 8, 12, 20, 30].getD q.val 0 ∧ effectiveLevel v q = v - penalty q
        ∧ seedF v q = 16 * (v - penalty q))
    ∧ (∀ (shift limit f v : Nat) (q : Fin 8),
      observeF shift limit f v q = filterStep shift f (max (v - penalty q) ((f + 8) / 16 - limit)))
    ∧ (∀ shift f le : Nat,
      (f = le * 16 → filterStep shift f le = f)
        ∧ (f < le * 16 → filterStep shift f le = f + max 1 ((le * 16 - f) / 2 ^ shift)
          ∧ filterStep shift f le ≤ le * 16)
        ∧ (le * 16 < f → filterStep shift f le + max 1 ((f - le * 16) / 2 ^ shift) = f
          ∧ le * 16 ≤ filterStep shift f le))
    ∧ ∀ h : Nat, h ≤ 31 →
      effectiveHysteresis h false false = h ∧ effectiveHysteresis h true false = 2 * h
        ∧ effectiveHysteresis h false true = h / 2 ∧ effectiveHysteresis h true true = h
        ∧ ∀ doubled inRescue, effectiveHysteresis h doubled inRescue ≤ 62

/-- The best neighbour of an entry is the eligible one with the greatest adjusted level, of equal ones the lowest index; there
is none exactly where no neighbour is eligible. Eligible is a LIVE neighbour with its accept flag set that the entry does
not exclude and that reports the radio (R26, R93, R94). -/
def Obligations.BestNeighbourHearsGreatest : Prop :=
  ∀ (s : State) (e : RosterEntry),
    (∀ (i j : Fin 128) x y, s.hearing.table[i] = some x → s.hearing.table[j] = some y → x.neighbour = y.neighbour →
      x.radio = y.radio → i = j) →
    let hears (n : Fin 8) (a : Int) : Prop :=
      s.hearing.neighbours[n].state = .live ∧ s.hearing.neighbours[n].accept = true
        ∧ (∀ x, e.exclusion = some x → x.neighbour ≠ n)
        ∧ ∃ (j : Fin 128) (x : HearingEntry), s.hearing.table[j] = some x ∧ x.neighbour = n ∧ x.radio = e.radio
          ∧ a = x.level + s.hearing.neighbours[n].bias
    (∀ n a, s.bestNeighbour e = some (n, a) ↔ hears n a ∧ ∀ m b, hears m b → b ≤ a ∧ (b = a → n ≤ m))
      ∧ (s.bestNeighbour e = none ↔ ∀ n a, ¬hears n a)

/-- The candidate condition is the conjunction of the five terms of R92, and an evaluation of a HOMED entry follows the four
rows of R91's table. The effective dwell that it sets is the configured dwell × 10 ticks, in rescue halved, truncated, and at
least 1, and a deadline of so many ticks is now plus these (R27, R28, R30, R91, R92, R95, R96, R97, R182). -/
def Obligations.EvaluationFollowsItsTable : Prop :=
  ∀ (s : State) (e : RosterEntry), e.state = .homed →
    (s.candidate e = true ↔
        s.port.hold = .opened ∧ e.radio ∉ s.roster.pins ∧ s.port.listenOnly = false
          ∧ ((e.callActive = none ∧ e.emergency = none) ∨ (e.f + 8) / 16 < s.par .rescueFloor)
          ∧ ∃ n a, s.bestNeighbour e = some (n, a)
            ∧ (effectiveHysteresis (s.par .hysteresis)
                  (match e.arrival with
                  | some x => x.guardRuns && x.origin != 0 && x.origin == s.hearing.neighbours[n].site
                  | none => false)
                  (decide ((e.f + 8) / 16 < s.par .rescueFloor)) : Int)
              ≤ a - ((e.f + 8) / 16 : Nat))
      ∧ EvaluatedTo s e (s.evaluated e)
      ∧ s.dwellFor e =
          (if (e.f + 8) / 16 < s.par .rescueFloor then max 1 (s.par .dwell * 10 / 2) else s.par .dwell * 10)
      ∧ ∀ ticks : Nat, s.due ticks = s.now + BitVec.ofNat 32 ticks

/-! ### Deadlines of roster entries -/

/-- At its lost deadline a HOMED entry is removed with the radio's hearing entries, a handset lost is counted and a LOST record
made whose to-site is the site at the away sighting; at its reservation deadline an EXPECTED entry is removed and a take
expired counted, with no record (R46, R48, R51, R85, R134). -/
def Obligations.LostAndLapsedEntriesAreRemoved : Prop :=
  (∀ (s : State) (i : Fin 64) (e : RosterEntry), s.resetHeld = false → s.roster.entries[i] = some e → e.state = .homed →
      e.lostDeadline = some s.now →
      ∃ t, exec (.lostDeadline i) s = .next t
        ∧ EntryRemoved s t i e.radio
        ∧ t.nego =
            { s.nego with
              last := some
                { radio := e.radio
                  toSite :=
                    match e.away with
                    | some x => s.hearing.neighbours[x.neighbour].site
                    | none => 0
                  stamp := s.now
                  outcome := .lost }
              previous := s.nego.last }
        ∧ t.port = { s.port with counters := s.port.counters.set 5 (saturate s.port.counters[5]) }
        ∧ t = { s with roster := t.roster, hearing := t.hearing, nego := t.nego, port := t.port })
    ∧ ∀ (s : State) (i : Fin 64) (e : RosterEntry) (x : Reservation), s.resetHeld = false →
      s.roster.entries[i] = some e → e.state = .expected → e.reservation = some x → x.deadline = s.now →
      ∃ t, exec (.reservationDeadline i) s = .next t
        ∧ EntryRemoved s t i e.radio
        ∧ t.port = { s.port with counters := s.port.counters.set 15 (saturate s.port.counters[15]) }
        ∧ t = { s with roster := t.roster, hearing := t.hearing, port := t.port }

/-- The call-active deadline, the emergency clear deadline, the end of the guard period and the exclusion deadline each change
their one field of the entry, and a HOMED entry is evaluated in the same event; nothing else changes (R40, R41, R47, R98,
R109). -/
def Obligations.FieldDeadlinesReevaluateTheEntry : Prop :=
  ∀ (s : State) (i : Fin 64) (e : RosterEntry), s.resetHeld = false → s.roster.entries[i] = some e →
    (e.callActive = some s.now →
        ∃ t, exec (.callActiveDeadline i) s = .next t ∧ EntryBecomes s t i { e with callActive := none }
          ∧ t = { s with roster := t.roster })
      ∧ (e.emergency = some s.now →
        ∃ t, exec (.emergencyClear i) s = .next t ∧ EntryBecomes s t i { e with emergency := none }
          ∧ t = { s with roster := t.roster })
      ∧ (∀ a, e.arrival = some a → a.guardRuns = true →
        s.now = a.stamp + BitVec.ofNat 32 (s.par .pingPongGuard * 100) →
        ∃ t, exec (.guardPeriodEnd i) s = .next t
          ∧ EntryBecomes s t i { e with arrival := some { a with guardRuns := false } }
          ∧ t = { s with roster := t.roster })
      ∧ ∀ x, e.exclusion = some x → x.deadline = s.now →
        ∃ t, exec (.exclusionDeadline i) s = .next t ∧ EntryBecomes s t i { e with exclusion := none }
          ∧ t = { s with roster := t.roster }

/-- At its dwell deadline a HOMED entry loses the deadline; where the condition is met it becomes ASKING with a departure
opened toward its best neighbour if the departure list has room, and ask-ready if it has none (R52, R103, R105, R112, R113,
R114). -/
def Obligations.DwellExpiryOpensOrDefers : Prop :=
  ∀ (s : State) (i : Fin 64) (e : RosterEntry), s.resetHeld = false → s.roster.entries[i] = some e → e.state = .homed →
    e.dwell = some s.now →
    ∃ t, exec (.dwellExpiry i) s = .next t
      ∧ t.roster.pins = s.roster.pins ∧ (∀ j : Fin 64, j ≠ i → t.roster.entries[j] = s.roster.entries[j])
      ∧ (s.candidate e = false →
          t.roster.entries[i] = some { e with dwell := none } ∧ t = { s with roster := t.roster })
      ∧ (s.candidate e = true → lowestFree s.nego.departures = none →
          t.roster.entries[i] = some { e with dwell := none, askReady := true } ∧ t = { s with roster := t.roster })
      ∧ (s.candidate e = true → ∀ p, lowestFree s.nego.departures = some p → ∃ n a,
          s.bestNeighbour e = some (n, a)
            ∧ t.roster.entries[i] = some
                { e with state := .asking, lostDeadline := none, dwell := none, askReady := false }
            ∧ ∃ reported, s.hearing.levelFor n e.radio = some reported
              ∧ (let d : Departure :=
                  { radio := e.radio, rosterIndex := i, target := n, sequence := s.nego.sequence + 1, phase := .asking
                    attempt := 1, deadline := s.now + BitVec.ofNat 32 (s.par .askTimeout * 10)
                    ownLevel := (e.f + 8) / 16, neighbourLevel := reported, emergency := e.emergency.isSome
                    rescue := decide ((e.f + 8) / 16 < s.par .rescueFloor) }
                let asked :=
                  s.offer s.hearing.neighbours[n].site .ask
                    (radioBytes e.radio
                      ++ [s.nego.sequence + 1, BitVec.ofNat 8 ((e.f + 8) / 16), BitVec.ofNat 8 reported,
                        (if d.emergency then 1 else 0) ||| (if d.rescue then 2 else 0)])
                t.nego =
                    { s.nego with
                      departures := s.nego.departures.set p (some d), sequence := s.nego.sequence + 1 }
                  ∧ t.link = asked.link
                  ∧ t.port = asked.port.bump .asksSent
                  ∧ t = { s with roster := t.roster, nego := t.nego, link := t.link, port := t.port }))

/-! ### Departures -/

/-- At the answer deadline of an ASKING record the ASK is resent with the same sequence and body while attempts remain, and
asks sent is not increased; with none remaining the record is removed, the entry returns to HOMED with the target excluded,
an ask timed out is counted, and the arbiter is taken (R53, R106, R115, R116). -/
def Obligations.AnswerDeadlineResendsOrGivesUp : Prop :=
  ∀ (s : State) (p : Fin 4) (d : Departure), s.resetHeld = false → s.nego.departures[p] = some d → d.phase = .asking →
    d.deadline = s.now →
    (d.attempt < s.par .askAttempts →
        let again : Departure :=
          { d with attempt := d.attempt + 1, deadline := s.now + BitVec.ofNat 32 (s.par .askTimeout * 10) }
        let asked := s.offer s.hearing.neighbours[d.target].site .ask (askBody d)
        exec (.answerDeadline p) s = .next
          { s with
            nego := { s.nego with departures := s.nego.departures.set p (some again) }
            link := asked.link
            port := asked.port })
      ∧ (s.par .askAttempts ≤ d.attempt → ∀ e, s.roster.entries[d.rosterIndex] = some e →
        ∃ u t, exec (.answerDeadline p) s = .next t ∧ ArbiterFollows s u t
          ∧ EntryBecomes s u d.rosterIndex (s.backHome d.target e) ∧ RecordRemoved s u d.radio
          ∧ u.nego.last = s.nego.last ∧ u.nego.previous = s.nego.previous
          ∧ u.port = { s.port with counters := s.port.counters.set 3 (saturate s.port.counters[3]) }
          ∧ u = { s with roster := u.roster, nego := u.nego, port := u.port })

/-- At the leave deadline of a LEAVING record, the record and the order go. A handset heard since the TAKE returns to HOMED
with the target excluded, and a steer failed is counted; one not heard is removed, and an UNCONFIRMED record made. The
arbiter is then taken (R55, R106, R122, R134, R142). -/
def Obligations.LeaveDeadlineRevertsOrRemoves : Prop :=
  ∀ (s : State) (p : Fin 4) (d : Departure) (e : RosterEntry), s.resetHeld = false → s.nego.departures[p] = some d →
    d.phase = .leaving → d.deadline = s.now → s.roster.entries[d.rosterIndex] = some e → e.radio = d.radio →
    e.state = .leaving →
    ∃ u t, exec (.leaveDeadline p) s = .next t ∧ ArbiterFollows s u t
      ∧ RecordRemoved s u d.radio ∧ u.steer = s.steer.remove d.radio
      ∧ (e.heardWhileLeaving = true →
          EntryBecomes s u d.rosterIndex (s.backHome d.target e)
            ∧ u.nego.last = s.nego.last ∧ u.nego.previous = s.nego.previous
            ∧ u.port = { s.port with counters := s.port.counters.set 4 (saturate s.port.counters[4]) }
            ∧ u = { s with roster := u.roster, nego := u.nego, steer := u.steer, port := u.port })
      ∧ (e.heardWhileLeaving = false →
          EntryRemoved s u d.rosterIndex d.radio
            ∧ u.nego.last = some
                { radio := d.radio, toSite := s.hearing.neighbours[d.target].site, stamp := s.now, outcome := .unconfirmed }
            ∧ u.nego.previous = s.nego.last
            ∧ u = { s with roster := u.roster, hearing := u.hearing, nego := u.nego, steer := u.steer })

/-- The arbiter takes the ask-ready HOMED entry of greatest advantage, of equal ones the lowest roster index, and opens its
departure toward its best neighbour; with no such entry it does nothing. An opened departure takes the lowest free position
and the next ask sequence, makes the entry ASKING, and offers its ASK, which is counted (R27, R52, R106, R112, R113, R114). -/
def Obligations.ArbiterTakesGreatestAdvantage : Prop :=
  (∀ s : State,
    let waits (i : Fin 64) (e : RosterEntry) (n : Fin 8) (advantage : Int) : Prop :=
      s.roster.entries[i] = some e ∧ e.state = .homed ∧ e.askReady = true
        ∧ ∃ a, s.bestNeighbour e = some (n, a) ∧ advantage = a - ((e.f + 8) / 16 : Nat)
    (∀ i e n x, waits i e n x → (∀ j f m y, waits j f m y → y ≤ x ∧ (y = x → i ≤ j)) →
        s.arbiter = s.openDeparture i n)
      ∧ ((∀ i e n x, ¬waits i e n x) → s.arbiter = s))
    ∧ ∀ (s : State) (i : Fin 64) (e : RosterEntry) (n : Fin 8) (p : Fin 4) (reported : Nat),
      s.roster.entries[i] = some e → lowestFree s.nego.departures = some p →
      s.hearing.levelFor n e.radio = some reported →
      let t := s.openDeparture i n
      let d : Departure :=
        { radio := e.radio, rosterIndex := i, target := n, sequence := s.nego.sequence + 1, phase := .asking, attempt := 1
          deadline := s.now + BitVec.ofNat 32 (s.par .askTimeout * 10), ownLevel := (e.f + 8) / 16
          neighbourLevel := reported, emergency := e.emergency.isSome
          rescue := decide ((e.f + 8) / 16 < s.par .rescueFloor) }
      let asked :=
        s.offer s.hearing.neighbours[n].site .ask
          (radioBytes e.radio
            ++ [s.nego.sequence + 1, BitVec.ofNat 8 ((e.f + 8) / 16), BitVec.ofNat 8 reported,
              (if d.emergency then 1 else 0) ||| (if d.rescue then 2 else 0)])
      t.roster.entries[i] = some { e with state := .asking, lostDeadline := none, dwell := none, askReady := false }
        ∧ (∀ j : Fin 64, j ≠ i → t.roster.entries[j] = s.roster.entries[j]) ∧ t.roster.pins = s.roster.pins
        ∧ t.nego =
            { s.nego with departures := s.nego.departures.set p (some d), sequence := s.nego.sequence + 1 }
        ∧ t = { s with roster := t.roster, nego := t.nego, link := asked.link, port := asked.port.bump .asksSent }

/-! ### Ageing -/

/-- At its age deadline a stray is removed; at its expiry a hearing entry is removed and the radio's HOMED entry evaluated; at
its silence deadline a LIVE neighbour becomes SILENT, loses its hearing entries, and every HOMED entry is evaluated (R64,
R78, R84, R86, R87, R99). -/
def Obligations.StraysHearingsAndNeighboursAgeOut : Prop :=
  (∀ (s : State) (j : Fin 32) (e : StrayEntry), s.resetHeld = false → s.strays.entries[j] = some e → e.ageDeadline = s.now →
      exec (.strayAgeDeadline j) s
        = .next { s with strays := { s.strays with entries := s.strays.entries.set j none } })
    ∧ (∀ (s : State) (j : Fin 128) (e : HearingEntry), s.resetHeld = false → s.hearing.table[j] = some e →
        e.expiry = s.now →
        ∃ t, exec (.hearingExpiry j) s = .next t
          ∧ t.hearing = { s.hearing with table := s.hearing.table.set j none }
          ∧ Reevaluated s t (fun r => r = e.radio)
          ∧ t = { s with roster := t.roster, hearing := t.hearing })
    ∧ ∀ (s : State) (n : Fin 8), s.resetHeld = false → s.hearing.neighbours[n].state = .live →
      s.hearing.neighbours[n].silence = some s.now →
      ∃ t, exec (.silenceDeadline n) s = .next t
        ∧ t.hearing.neighbours = s.hearing.neighbours.set n { s.hearing.neighbours[n] with state := .silent, silence := none }
        ∧ (∀ j : Fin 128, t.hearing.table[j] = s.hearing.table[j].filter fun e => e.neighbour != n)
        ∧ Reevaluated s t (fun _ => True)
        ∧ t = { s with roster := t.roster, hearing := t.hearing }

/-! ### HEARD notices -/

/-- The selection of a notice: at most six entries, each at or above the report floor and not yet reported, and every such
entry is taken unless six that the walk from the cursor meets before it are (R68). -/
def Obligations.SelectionTakesFirstSixOfTheWalk : Prop :=
  ∀ (t : StrayTracker) (floor : Nat),
    let fits (j : Fin 32) : Prop :=
      ∃ e, t.entries[j] = some e ∧ floor ≤ (e.f + 8) / 16 ∧ e.reported = false
    let taken := t.selection floor
    taken.length ≤ 6
      ∧ taken.Pairwise (fun a b => (a - t.cursor).val < (b - t.cursor).val)
      ∧ (∀ j ∈ taken, fits j)
      ∧ ∀ j, fits j → j ∉ taken → taken.length = 6 ∧ ∀ k ∈ taken, (k - t.cursor).val < (j - t.cursor).val

/-- At an expiry the hearing deadline is advanced by the hearing period. Outside RUNNING, under listen-only or with a HEARD
frame waiting, nothing else changes; else a selection is sent as a HEARD notice, its entries marked reported and the cursor
moved if the queue accepts it; with an empty selection a presence notice is sent when it is due, and else nothing (R66, R67,
R69, R70, R183). -/
def Obligations.HearingPeriodSendsNotices : Prop :=
  ∀ s : State, s.resetHeld = false → s.strays.hearingDeadline = some s.now →
    let on : StrayTracker :=
      { s.strays with hearingDeadline := some (s.now + BitVec.ofNat 32 (s.par .hearingPeriod * 10)) }
    let may : Prop :=
      s.loader.opState = .running ∧ s.port.listenOnly = false ∧ ∀ x ∈ s.link.tx, x.frame.kind ≠ .heard
    let taken := s.strays.selection (s.par .reportFloor)
    let quiet : Prop :=
      s.link.lastSent = none
        ∨ ∃ m, s.link.lastSent = some m ∧ (m.old = true ∨ s.par .presencePeriod * 100 ≤ (s.now - m.time).toNat)
    let pairs := taken.filterMap fun j => s.strays.entries[j].map fun e => (e.radio, (e.f + 8) / 16)
    let notice := s.offer 0 .heard (numByte pairs.length :: pairs.flatMap fun x => radioBytes x.1 ++ [numByte x.2])
    let presence := s.offer 0 .heard [0x00]
    (¬may ∨ (taken = [] ∧ ¬quiet) → exec .hearingPeriodExpiry s = .next { s with strays := on })
      ∧ (may → taken = [] → quiet →
          exec .hearingPeriodExpiry s = .next { s with strays := on, link := presence.link, port := presence.port })
      ∧ (may → taken ≠ [] → s.link.tx.length < 16 → s.link.txState ≠ .muted →
          ∃ t, exec .hearingPeriodExpiry s = .next t
            ∧ t = { s with strays := t.strays, link := notice.link, port := notice.port }
            ∧ t.strays.hearingDeadline = on.hearingDeadline
            ∧ (∀ last, taken.getLast? = some last → t.strays.cursor = last + 1)
            ∧ ∀ j : Fin 32, t.strays.entries[j] =
                s.strays.entries[j].map fun e => if j ∈ taken then { e with reported := true } else e)
      ∧ (may → taken ≠ [] → 16 ≤ s.link.tx.length →
          exec .hearingPeriodExpiry s = .next { s with strays := on, port := notice.port })

/-! ### The site link -/

/-- The waits of the transmitter end: at the idle gap a held count is resumed without a draw, and otherwise one is drawn by one
shift of the register, a count of 0 keying at once; at the end of a count the head frame is keyed; at the spacing deadline
the transmitter becomes IDLE with an empty queue, and else waits in DEFER, or draws at once where the channel has been quiet
for the idle gap (R160, R161, R162, R163). -/
def Obligations.TransmitterWaitsRunOut : Prop :=
  ∀ (s : State) (m : MarkedStamp), s.resetHeld = false →
    let drawn (r : BitVec 16) : BitVec 16 :=
      (r <<< 1) ||| (if r.getLsbD 15 ^^ r.getLsbD 13 ^^ r.getLsbD 12 ^^ r.getLsbD 10 then 1 else 0)
    let keyed (l : Link) (head : TxItem) (rest : List TxItem) : Link :=
      { l with tx := { frame := head.frame, keyed := true } :: rest, quietSince := none, txState := .sending }
    (s.link.quietSince = some m → s.now = m.time + BitVec.ofNat 32 (s.par .idleGap) →
        (∀ b, s.link.txState = .defer (some b) → b ≠ 0 →
            exec .idleGapDeadline s = .next { s with link := { s.link with txState := .backoff b } })
          ∧ ∀ w, s.link.txState = .defer none → s.link.window = some w →
              let r := drawn s.link.register
              (r.toNat % w ≠ 0 →
                exec .idleGapDeadline s = .next
                  { s with link := { s.link with register := r, txState := .backoff (r.toNat % w) } })
              ∧ ∀ head rest, r.toNat % w = 0 → s.link.tx = head :: rest →
                exec .idleGapDeadline s = .next { s with link := keyed { s.link with register := r } head rest })
      ∧ (∀ head rest, s.link.txState = .backoff 0 → s.link.tx = head :: rest →
          exec .backoffEnd s = .next { s with link := keyed s.link head rest })
      ∧ (s.link.txState = .spacing s.now →
          (s.link.tx = [] → exec .spacingEnd s = .next { s with link := { s.link with txState := .idle } })
            ∧ (s.link.tx ≠ [] →
              (s.link.quietSince = none ∨ (s.link.quietSince = some m ∧ m.old = false
                  ∧ (s.now - m.time).toNat < s.par .idleGap) →
                exec .spacingEnd s = .next { s with link := { s.link with txState := .defer none } })
              ∧ ∀ w, s.link.quietSince = some m → m.old = true ∨ s.par .idleGap ≤ (s.now - m.time).toNat →
                s.link.window = some w →
                let r := drawn s.link.register
                (r.toNat % w ≠ 0 →
                  exec .spacingEnd s = .next
                    { s with link := { s.link with register := r, txState := .backoff (r.toNat % w) } })
                ∧ ∀ head rest, r.toNat % w = 0 → s.link.tx = head :: rest →
                  exec .spacingEnd s = .next { s with link := keyed { s.link with register := r } head rest }))

/-- At a window end W doubles up to 64 where the onsets reached the load threshold, halves down to 4 where they stayed below
half of it, and else stays; the count restarts at 0 and the deadline moves 100 ticks on (R166). -/
def Obligations.WindowEndFollowsTheLoad : Prop :=
  ∀ (s : State) (w : Nat), s.resetHeld = false → s.link.windowDeadline = some s.now → s.link.window = some w →
    w ∈ [4, 8, 16, 32, 64] →
    exec .windowEnd s = .next
      { s with
        link :=
          { s.link with
            window := some
              (if s.par .loadThreshold ≤ s.link.onsets.toNat then min 64 (2 * w)
              else if s.link.onsets.toNat < s.par .loadThreshold / 2 then max 4 (w / 2)
              else w)
            onsets := 0
            windowDeadline := some (s.now + 100) } }

/-- A rise of LNK_CD begins a collection, to be dropped in LOADING and CONFIG_FAULT, counts an onset where a window runs,
removes the quiet-since stamp, and freezes a running count into DEFER; no other state of the transmitter changes (R150, R158,
R161, R165). -/
def Obligations.CarrierOnsetFreezesTheCount : Prop :=
  ∀ s : State, s.resetHeld = false → s.link.lnkCd = false → s.link.txState ≠ .backoff 0 →
    ∃ t, exec .carrierOnset s = .next t
      ∧ t = { s with link := t.link }
      ∧ t.link =
          { s.link with
            lnkCd := true
            collection := if s.loader.opState = .running ∨ s.loader.opState = .flushing then .collecting else .dropping
            onsets := if s.link.windowDeadline = none then s.link.onsets else saturate s.link.onsets
            quietSince := none
            txState := t.link.txState }
      ∧ (∀ b, s.link.txState = .backoff b → t.link.txState = .defer (some b))
      ∧ ((∀ b, s.link.txState ≠ .backoff b) → t.link.txState = s.link.txState)

/-- A fall of LNK_CD ends the collection and, after a load and while the key is not asserted, sets the quiet-since stamp. The
bytes of a collection pass or fail R151: a frame of another site joins the receive queue byte for byte, or is lost with
counter 12 and RX_OVERFLOW where sixteen are held; one of this site's own number counts a clash and sets SITE_CLASH; one
that fails counts in counter 11; a period without a byte, or begun in LOADING or CONFIG_FAULT, yields nothing (R150, R151,
R152, R153, R158). That a fall in SENDING leaves the quiet-since stamp as it is, is the model's reading (log entry 12). -/
def Obligations.CarrierFallJudgesTheFrame : Prop :=
  ∀ (s : State) (bytes : List Byte), s.resetHeld = false → s.link.lnkCd = true →
    let fallen : Link :=
      { s.link with
        lnkCd := false, collection := .idle
        quietSince :=
          if (s.loader.opState = .running ∨ s.loader.opState = .flushing) ∧ s.link.txState ≠ .sending then
            some { time := s.now, old := false }
          else s.link.quietSince }
    let own := byteAt s.loader.image 1
    ((s.link.collection ≠ .collecting ∨ bytes = []) → exec (.carrierFall bytes) s = .next { s with link := fallen })
      ∧ (s.link.collection = .collecting → bytes ≠ [] → passesTests bytes = false →
          exec (.carrierFall bytes) s = .next
            { s with
              link := fallen
              port := { s.port with counters := s.port.counters.set 10 (saturate s.port.counters[10]) } })
      ∧ (s.link.collection = .collecting → passesTests bytes = true → byteAt bytes 1 = own →
          exec (.carrierFall bytes) s = .next
            { s with
              link := fallen
              port :=
                { s.port with
                  counters := s.port.counters.set 13 (saturate s.port.counters[13])
                  flags := { s.port.flags with siteClash := true } } })
      ∧ (s.link.collection = .collecting → passesTests bytes = true → byteAt bytes 1 ≠ own → s.link.rx.length < 16 →
          ∃ f : LinkFrame, f.bytes = bytes
            ∧ exec (.carrierFall bytes) s = .next { s with link := { fallen with rx := s.link.rx ++ [f] } })
      ∧ (s.link.collection = .collecting → passesTests bytes = true → byteAt bytes 1 ≠ own → 16 ≤ s.link.rx.length →
          exec (.carrierFall bytes) s = .next
            { s with
              link := fallen
              port :=
                { s.port with
                  counters := s.port.counters.set 11 (saturate s.port.counters[11])
                  flags := { s.port.flags with rxOverflow := true } } })

/-- A report on LNK_SENT in SENDING removes the keyed frame, sets the last-sent stamp and, while LNK_CD is low, the quiet-since
stamp, drops the key and begins SPACING; a spacing of 0 ends in the same event (R72, R157, R158, R162). -/
def Obligations.SentReportEndsTransmission : Prop :=
  ∀ s : State, s.resetHeld = false → s.link.txState = .sending →
    let spaced : Link :=
      { s.link with
        tx := s.link.tx.filter fun x => !x.keyed
        lastSent := some { time := s.now, old := false }
        quietSince := if s.link.lnkCd then s.link.quietSince else some { time := s.now, old := false }
        txState := .spacing (s.now + BitVec.ofNat 32 (s.par .txSpacing)) }
    (s.par .txSpacing ≠ 0 → exec .sentReport s = .next { s with link := spaced })
      ∧ (s.par .txSpacing = 0 → spaced.tx = [] → exec .sentReport s = .next { s with link := { spaced with txState := .idle } })
      ∧ (s.par .txSpacing = 0 → spaced.tx ≠ [] → s.link.lnkCd = false → s.par .idleGap ≠ 0 →
          exec .sentReport s = .next { s with link := { spaced with txState := .defer none } })
      ∧ (s.par .txSpacing = 0 → spaced.tx ≠ [] → s.link.lnkCd = true → s.link.quietSince = none →
          exec .sentReport s = .next { s with link := { spaced with txState := .defer none } })

/-! ### Dispatched frames -/

/-- A frame leaves the head of the receive queue when it is dispatched, and only in RUNNING. One for another site does no more
than make its source LIVE; a HEARD from no configured neighbour is counted in counter 11; any other frame from such a
source, addressed here, goes to the Negotiator (R77, R99, R154). -/
def Obligations.DispatchRoutesTheHeadFrame : Prop :=
  ∀ (s : State) (f : LinkFrame) (rest : List LinkFrame), s.resetHeld = false → s.link.rx = f :: rest →
    let own := byteAt s.loader.image 1
    let taken : State := { s with link := { s.link with rx := rest } }
    (s.loader.opState ≠ .running → exec .dispatch s = .next s)
      ∧ (s.loader.opState = .running → ∀ n, s.hearing.neighbourOf f.source = some n → f.dest ≠ 0 → f.dest ≠ own →
          ∃ t, exec .dispatch s = .next t
            ∧ t.hearing =
                { s.hearing with
                  neighbours :=
                    s.hearing.neighbours.set n
                      { s.hearing.neighbours[n] with
                        state := .live, lastFrame := some s.now
                        silence := some (s.now + BitVec.ofNat 32 (s.par .silenceTime * 100)) } }
            ∧ Reevaluated s t (fun _ => s.hearing.neighbours[n].state ≠ .live)
            ∧ t = { taken with hearing := t.hearing, roster := t.roster }
            ∧ t = s.dispatched f rest)
      ∧ (s.loader.opState = .running → s.hearing.neighbourOf f.source = none →
          (f.dest ≠ 0 → f.dest ≠ own → exec .dispatch s = .next taken)
            ∧ (f.dest = 0 ∨ f.dest = own →
              (f.kind = .heard →
                exec .dispatch s = .next
                  { taken with port := { s.port with counters := s.port.counters.set 10 (saturate s.port.counters[10]) } })
              ∧ (f.kind ≠ .heard → exec .dispatch s = .next (taken.negotiate f))))

/-- A HEARD of 0 to 6 pairs from a configured neighbour makes the neighbour LIVE and reads its pairs in body order, each
against the table that the pairs before it left. A pair of a radio that is HOMED, ASKING or LEAVING here is stored: in the
entry of the pair, else at the lowest free index, else in place of the oldest entry, the lowest index of equal stamps. Any
other pair is discarded. After all of them the HOMED entries of the radios stored or replaced are evaluated once, every one
of them where the neighbour was not LIVE; a presence notice of no pairs stores nothing (R18, R77, R79, R81, R82, R83, R87,
R99, R100). -/
def Obligations.HeardPairIsStoredOrDiscarded : Prop :=
  ∀ (s : State) (f : LinkFrame) (rest : List LinkFrame) (n : Fin 8) (pairs : List (Radio × Byte)), s.resetHeld = false →
    s.link.rx = f :: rest → s.loader.opState = .running → s.hearing.neighbourOf f.source = some n → f.kind = .heard →
    f.dest = 0 ∨ f.dest = byteAt s.loader.image 1 → pairs.length ≤ 6 →
    f.body = BitVec.ofNat 8 pairs.length :: pairs.flatMap (fun x => radioBytes x.1 ++ [x.2]) →
    let kept (r : Radio) : Prop := ∃ e, s.rosterEntry r = some e ∧ e.state ≠ .expected
    ∃ (t : State) (table : Nat → Vector (Option HearingEntry) 128) (place : Nat → Fin 128),
      exec .dispatch s = .next t
        ∧ t = { s with link := { s.link with rx := rest }, hearing := t.hearing, roster := t.roster }
        ∧ t.hearing.neighbours =
            s.hearing.neighbours.set n
              { s.hearing.neighbours[n] with
                state := .live, lastFrame := some s.now
                silence := some (s.now + BitVec.ofNat 32 (s.par .silenceTime * 100)) }
        ∧ table 0 = s.hearing.table ∧ t.hearing.table = table pairs.length
        ∧ (∀ (k : Nat) (x : Radio × Byte), pairs[k]? = some x →
          (¬kept x.1 → table (k + 1) = table k)
            ∧ (kept x.1 → PairPlace s.now n x.1 (table k) (place k)
              ∧ table (k + 1) = (table k).set (place k)
                (some
                  { neighbour := n, radio := x.1, level := min x.2.toNat 200, received := s.now
                    expiry := s.now + BitVec.ofNat 32 (s.par .hearingMaxAge * 100) })))
        ∧ Reevaluated s t fun r =>
            s.hearing.neighbours[n].state ≠ .live
              ∨ ∃ (k : Nat) (x : Radio × Byte), pairs[k]? = some x ∧ kept x.1
                ∧ (r = x.1 ∨ ((table k)[place k].map HearingEntry.radio) = some r)

/-- An answer to an ASK. A TAKE that matches an ASKING record makes record and entry LEAVING, sets the leave deadline and offers
a MOVE order; where hold time and leave margin are both 0 the leave deadline is reached in the same event, the handset is
removed as UNCONFIRMED and the arbiter is taken; a DECLINE that matches returns the entry to HOMED with the target excluded,
is counted, and the arbiter is taken; an answer that matches no record, or comes from no configured neighbour, does nothing
more (R53, R54, R77, R99, R106, R117, R118, R119, R122, R138, R182). That every HOMED entry is evaluated for a neighbour made
LIVE before the Negotiator takes the frame is the model's reading (log entry 14). -/
def Obligations.AnswersMoveTheDeparture : Prop :=
  ∀ (s : State) (f : LinkFrame) (rest : List LinkFrame), s.resetHeld = false → s.link.rx = f :: rest →
    s.loader.opState = .running → f.dest = 0 ∨ f.dest = byteAt s.loader.image 1 →
    let heard := s.dispatched f rest
    let matched := s.matchingRecord f.source (radioAt f.body 0) (byteAt f.body 3)
    (f.kind = .take ∨ f.kind = .decline → matched = none → exec .dispatch s = .next heard)
      ∧ (∀ p d, matched = some p → s.nego.departures[p] = some d →
          d.radio = radioAt f.body 0 ∧ d.phase = .asking ∧ d.sequence = byteAt f.body 3
            ∧ s.hearing.neighbours[d.target].site = f.source)
      ∧ ∀ p d e, matched = some p → s.nego.departures[p] = some d → heard.roster.entries[d.rosterIndex] = some e →
        let target := s.hearing.neighbours[d.target]
        let offered := s.offerMove d.radio d.target
        (f.kind = .take → (byteAt f.body 4).toNat + s.par .leaveMargin ≠ 0 →
          ∃ t, exec .dispatch s = .next t
            ∧ t.nego.departures = s.nego.departures.set p (some
                { d with
                  phase := .leaving
                  deadline := s.now + BitVec.ofNat 32 (((byteAt f.body 4).toNat + s.par .leaveMargin) * 10) })
            ∧ t.roster.entries[d.rosterIndex] = some { e with state := .leaving, heardWhileLeaving := false }
            ∧ (∀ j, j ≠ d.rosterIndex → t.roster.entries[j] = heard.roster.entries[j])
            ∧ t.roster.pins = s.roster.pins
            ∧ (s.steer.orders.length < 8 → t.port = s.port ∧ t.steer.orders = s.steer.orders ++
                [{ kind := .move, radio := d.radio, channel := target.channel, site := target.site
                   repeats := s.par .steerRepeats }])
            ∧ t = { heard with
                    nego := { s.nego with departures := t.nego.departures }, roster := t.roster, steer := offered.steer
                    port := offered.port })
          ∧ (f.kind = .take → e.radio = d.radio → (byteAt f.body 4).toNat + s.par .leaveMargin = 0 →
            ∃ u t, exec .dispatch s = .next t ∧ ArbiterFollows heard u t
              ∧ EntryRemoved heard u d.rosterIndex d.radio ∧ RecordRemoved s u d.radio
              ∧ u.nego.last = some { radio := d.radio, toSite := target.site, stamp := s.now, outcome := .unconfirmed }
              ∧ u.nego.previous = s.nego.last
              ∧ u = { heard with
                      roster := u.roster, hearing := u.hearing, nego := u.nego, steer := offered.steer.remove d.radio
                      port := offered.port })
          ∧ (f.kind = .decline →
            ∃ u t, exec .dispatch s = .next t ∧ ArbiterFollows heard u t
              ∧ EntryBecomes heard u d.rosterIndex (s.backHome d.target e) ∧ RecordRemoved s u d.radio
              ∧ u.nego.last = s.nego.last ∧ u.nego.previous = s.nego.previous
              ∧ u.port = { s.port with counters := s.port.counters.set 2 (saturate s.port.counters[2]) }
              ∧ u = { heard with roster := u.roster, nego := u.nego, port := u.port })

/-- A MOVE offered to the steer queue is admitted at the tail; from a queue of eight orders it displaces the REFUSE newest by
admission, which is counted in counter 13. An order for a radio that is removed leaves the others in their order (R138,
R142, R145). That STR_DAT holds no bytes while no order is held, and the count of presentations, are the model's choice
(log entry 4). -/
def Obligations.MoveDisplacesTheNewestRefuse : Prop :=
  (∀ (s : State) (r newest : Radio) (n : Fin 8) (before after : List Radio), s.steer.orders.length = 8 →
    s.steer.admission = before ++ newest :: after →
    (s.steer.orders.any fun x => x.radio == newest && x.kind == .refuse) = true →
    (∀ x ∈ after, (s.steer.orders.any fun y => y.radio == x && y.kind == .refuse) = false) →
    let t := s.offerMove r n
    t.steer.orders = (s.steer.orders.filter fun x => x.radio != newest) ++
        [{ kind := .move, radio := r, channel := s.hearing.neighbours[n].channel, site := s.hearing.neighbours[n].site
           repeats := s.par .steerRepeats }]
      ∧ t.steer.admission = (s.steer.admission.filter fun x => x != newest) ++ [r]
      ∧ t = { s with
              steer := t.steer
              port := { s.port with counters := s.port.counters.set 12 (saturate s.port.counters[12]) } })
    ∧ (∀ (s : State) (r : Radio) (n : Fin 8), s.steer.orders.length < 8 →
      let t := s.offerMove r n
      t.steer.orders = s.steer.orders ++
          [{ kind := .move, radio := r, channel := s.hearing.neighbours[n].channel, site := s.hearing.neighbours[n].site
             repeats := s.par .steerRepeats }]
        ∧ t.steer.admission = s.steer.admission ++ [r]
        ∧ t = { s with steer := t.steer })
    ∧ ∀ (q : SteerQueue) (r : Radio),
      ((∃ x ∈ q.orders, x.radio = r) → OrderRemoved q (q.remove r) r)
        ∧ ((∀ x ∈ q.orders, x.radio ≠ r) → q.remove r = q)

/-- An ASK addressed here is answered by the first of the eight cases that holds: declined as from no neighbour, left
unanswered under listen-only, declined as closed, answered again for the reservation it made, declined as present, unheard
or full, or accepted; a DECLINE changes nothing else (R125, R126, R128). What STR_DAT holds with no order and the count of
presentations are the model's choice (log entry 4). -/
def Obligations.AskIsAnsweredByTheFirstCase : Prop :=
  ∀ (s : State) (f : LinkFrame) (rest : List LinkFrame), s.resetHeld = false → s.link.rx = f :: rest →
    s.loader.opState = .running → f.kind = .ask → f.dest = 0 ∨ f.dest = byteAt s.loader.image 1 →
    let r := radioAt f.body 0
    let q := byteAt f.body 3
    let emergency := (byteAt f.body 6).getLsbD 0
    let taken : State := { s with link := { s.link with rx := rest } }
    (s.hearing.neighbourOf f.source = none →
        exec .dispatch s = .next (taken.offer f.source .decline (radioBytes r ++ [q, 5])))
      ∧ ∀ n, s.hearing.neighbourOf f.source = some n →
        let heard := s.dispatched f rest
        let declined (reason : Byte) : Prop :=
          exec .dispatch s = .next (heard.offer f.source .decline (radioBytes r ++ [q, reason]))
        (s.port.listenOnly = true → exec .dispatch s = .next heard)
          ∧ (s.port.listenOnly = false →
            (s.port.hold = .closed → declined 1)
              ∧ (s.port.hold ≠ .closed →
                (∀ i e, heard.rosterIndex r = some i → heard.roster.entries[i] = some e → e.state ≠ .expected → declined 2)
                  ∧ (∀ i e x, heard.rosterIndex r = some i → heard.roster.entries[i] = some e → e.state = .expected →
                      e.reservation = some x → ¬(x.fromSite = f.source ∧ x.sequence = q) → declined 2)
                  ∧ (heard.rosterIndex r = none → s.strays.entryOf r = none → declined 3)
                  ∧ (heard.rosterIndex r = none → (s.strays.entryOf r).isSome = true →
                      (if emergency then 64 else 60) ≤ heard.occupancy → declined 4)
                  ∧ ∀ stray i, heard.rosterIndex r = none → s.strays.entryOf r = some stray →
                      heard.occupancy < (if emergency then 64 else 60) → lowestFree heard.roster.entries = some i →
                      let answered := heard.offer f.source .take (radioBytes r ++ [q, BitVec.ofNat 8 (s.par .arrivalTimeout)])
                      ∃ t, exec .dispatch s = .next t
                        ∧ t.roster.entries[i] = some
                            { radio := r, state := .expected, f := stray.f, lastHeard := s.now, lostDeadline := none
                              count := none, arrival := none, emergency := none, callActive := none, away := none
                              dwell := none, askReady := false, exclusion := none, heardWhileLeaving := false
                              reservation := some
                                { fromSite := f.source, sequence := q
                                  deadline := s.now + BitVec.ofNat 32 (s.par .arrivalTimeout * 10) } }
                        ∧ (∀ j, j ≠ i → t.roster.entries[j] = heard.roster.entries[j]) ∧ t.roster.pins = s.roster.pins
                        ∧ t.occupancy = heard.occupancy + 1
                        ∧ StrayRemoved s.strays t.strays r
                        ∧ RefuseRemoved s.steer t.steer r
                        ∧ t = { heard with
                                roster := t.roster, strays := t.strays, steer := t.steer, link := answered.link
                                port := answered.port.bump .takesGiven }))

/-- A repeated ASK for a reservation already held renews its deadline and no other field of the entry, and the same TAKE is
offered again (R50, R127). -/
def Obligations.RepeatedAskRenewsReservation : Prop :=
  ∀ (s : State) (f : LinkFrame) (rest : List LinkFrame) (n : Fin 8) (i : Fin 64) (e : RosterEntry) (x : Reservation),
    s.resetHeld = false → s.link.rx = f :: rest → s.loader.opState = .running → f.kind = .ask →
    f.dest = 0 ∨ f.dest = byteAt s.loader.image 1 → s.hearing.neighbourOf f.source = some n →
    s.port.listenOnly = false → s.port.hold ≠ .closed →
    s.rosterIndex (radioAt f.body 0) = some i → s.roster.entries[i] = some e → e.state = .expected →
    e.reservation = some x → x.fromSite = f.source → x.sequence = byteAt f.body 3 →
    let heard := s.dispatched f rest
    let answered :=
      heard.offer f.source .take
        (radioBytes (radioAt f.body 0) ++ [byteAt f.body 3, BitVec.ofNat 8 (s.par .arrivalTimeout)])
    ∃ t, exec .dispatch s = .next t
      ∧ t.roster.entries[i] = some
          { e with
            reservation := some
              { x with deadline := s.now + BitVec.ofNat 32 (s.par .arrivalTimeout * 10) } }
      ∧ (∀ j : Fin 64, j ≠ i → t.roster.entries[j] = heard.roster.entries[j]) ∧ t.roster.pins = s.roster.pins
      ∧ t.occupancy = s.occupancy
      ∧ t = { heard with roster := t.roster, link := answered.link, port := answered.port }

/-- A HOMED is taken by the state of the radio's entry: for a radio without an entry it does nothing more, a reservation is
removed, a departure toward its source is confirmed, and any other entry goes to the conflict test, which keeps it and
announces HOMED again, or removes it with its record and order, SUPERSEDED where it was HOMED with a known count and else
ELSEWHERE. Where a departure record is removed the arbiter is taken. From no configured neighbour it is taken alike (R57,
R77, R99, R106, R124, R130, R131, R132, R134). That every HOMED entry is evaluated for a neighbour made LIVE before the
Negotiator takes the frame is the model's reading (log entry 14). -/
def Obligations.HomedIsTakenByEntryState : Prop :=
  ∀ (s : State) (f : LinkFrame) (rest : List LinkFrame), s.resetHeld = false → s.link.rx = f :: rest →
    s.loader.opState = .running → f.kind = .homed → f.dest = 0 ∨ f.dest = byteAt s.loader.image 1 →
    let r := radioAt f.body 0
    let c : Option (BitVec 4) := if (byteAt f.body 3).toNat ≤ 15 then some ((byteAt f.body 3).setWidth 4) else none
    let heard := s.dispatched f rest
    (heard.rosterIndex r = none → exec .dispatch s = .next heard)
      ∧ ∀ i e, heard.rosterIndex r = some i → heard.roster.entries[i] = some e → e.radio = r →
        (e.state = .expected →
            ∃ t, exec .dispatch s = .next t ∧ EntryRemoved heard t i r
              ∧ t = { heard with roster := t.roster, hearing := t.hearing })
          ∧ (e.state = .leaving → s.targetSite r = some f.source →
            ∃ u t, exec .dispatch s = .next t ∧ ArbiterFollows heard u t
              ∧ EntryRemoved heard u i r ∧ RecordRemoved s u r
              ∧ u.steer = s.steer.remove r
              ∧ u.nego.last = some { radio := r, toSite := f.source, stamp := s.now, outcome := .confirmed }
              ∧ u.nego.previous = s.nego.last
              ∧ u.port = { s.port with counters := s.port.counters.set 0 (saturate s.port.counters[0]) }
              ∧ u = { heard with roster := u.roster, hearing := u.hearing, nego := u.nego, steer := u.steer, port := u.port })
          ∧ (e.state = .homed ∨ e.state = .asking ∨ (e.state = .leaving ∧ s.targetSite r ≠ some f.source) →
            (keepsHandset (byteAt s.loader.image 1) f.source e.count c = true →
                exec .dispatch s = .next
                  (heard.offer 0 .homed
                    (radioBytes r ++ [countByte e.count, match e.arrival with | some a => a.origin | none => 0])))
              ∧ (keepsHandset (byteAt s.loader.image 1) f.source e.count c = false →
                ∃ u t, exec .dispatch s = .next t
                  ∧ ((s.departureIndex r).isSome = true → ArbiterFollows heard u t)
                  ∧ (s.departureIndex r = none → t = u)
                  ∧ EntryRemoved heard u i r ∧ RecordRemoved s u r
                  ∧ u.steer = s.steer.remove r
                  ∧ u.nego.last = some
                      { radio := r, toSite := f.source, stamp := s.now
                        outcome := if e.state = .homed ∧ e.count ≠ none then .superseded else .elsewhere }
                  ∧ u.nego.previous = s.nego.last
                  ∧ u = { heard with roster := u.roster, hearing := u.hearing, nego := u.nego, steer := u.steer }))

/-- Two sites that hold the same two counts and read each other's announcements reach opposite results, and a claim keeps the
handset exactly where it is the newer one, or neither is and its site number is the lower (R131). -/
def Obligations.ConflictTestAgreesAtBothSites : Prop :=
  ∀ (own other : Byte) (k c : Option (BitVec 4)), own ≠ other →
    (keepsHandset own other k c = true ↔ keepsHandset other own c k = false)
      ∧ (let newer (x y : Option (BitVec 4)) : Prop :=
          ∃ a, x = some a ∧ (y = none ∨ ∃ b, y = some b ∧ 1 ≤ (a.toNat + 16 - b.toNat) % 16
            ∧ (a.toNat + 16 - b.toNat) % 16 ≤ 7)
        (keepsHandset own other k c = true ↔ newer k c ∨ (¬newer k c ∧ ¬newer c k ∧ own.toNat < other.toNat)))

/-- A frame that one site completes from a body that fits its kind is judged at any other site as the very frame that was
completed: nothing of it is lost or changed (R148, R149, R151). A frame offered is so completed, and, in RUNNING and not
MUTED, a negotiation frame joins behind the last negotiation frame and ahead of any HEARD, displacing from a full queue a
HEARD that is not keyed, and a HEARD joins at the tail of a queue without one; any other offer is discarded; a discard and
a displacement are counted in counter 13 (R155, R156). Accepted into an empty queue in IDLE, it is keyed at once where the
channel has been quiet for idle gap + W ticks, and waits in DEFER otherwise, from where a channel quiet for the idle gap
has a count drawn at once (R159, R160). -/
def Obligations.CompletedFramePassesElsewhere : Prop :=
  (∀ (own other dest : Byte) (kind : FrameKind) (body : List Byte), own ≠ 0 → own ≠ 255 → other ≠ own →
    bodyFits kind body = true →
    judge other (completeFrame own dest kind body).bytes = .passed (completeFrame own dest kind body)
      ∧ judge own (completeFrame own dest kind body).bytes = .clash)
    ∧ ∀ (s : State) (dest : Byte) (kind : FrameKind) (body : List Byte),
      let item : TxItem := { frame := completeFrame (byteAt s.loader.image 1) dest kind body, keyed := false }
      let t := s.offer dest kind body
      let counted : Port := { s.port with counters := s.port.counters.set 12 (saturate s.port.counters[12]) }
      let accepts : Prop := s.loader.opState = .running ∧ s.link.txState ≠ .muted
      let full : Prop := 16 ≤ s.link.tx.length
      let heardHeld : Prop := ∃ x ∈ s.link.tx, x.frame.kind = .heard
      let heardWaits : Prop := ∃ x ∈ s.link.tx, x.frame.kind = .heard ∧ x.keyed = false
      let starts : Prop := s.link.tx = [] ∧ s.link.txState = .idle
      let ahead := s.link.tx.filter fun x => x.frame.kind != .heard
      let behind := s.link.tx.filter fun x => x.frame.kind == .heard
      (¬accepts → t = { s with port := counted })
        ∧ (accepts → kind ≠ .heard →
          (¬full → ¬starts → t = { s with link := { s.link with tx := ahead ++ item :: behind } })
            ∧ (full → heardWaits →
              t = { s with
                    link := { s.link with tx := ahead ++ item :: behind.filter fun x => x.keyed }
                    port := counted })
            ∧ (full → ¬heardWaits → t = { s with port := counted }))
        ∧ (accepts → kind = .heard →
          (heardHeld ∨ full → t = { s with port := counted })
            ∧ (¬heardHeld → ¬full → ¬starts → t = { s with link := { s.link with tx := s.link.tx ++ [item] } }))
        ∧ (accepts → starts → ∀ w, s.link.window = some w →
          let register :=
            let r := s.link.register
            (r <<< 1) ||| (if r.getLsbD 15 ^^ r.getLsbD 13 ^^ r.getLsbD 12 ^^ r.getLsbD 10 then 1 else 0)
          let keyed (l : Link) : State :=
            { s with link := { l with tx := [{ item with keyed := true }], quietSince := none, txState := .sending } }
          (s.link.quietSince = none → t = { s with link := { s.link with tx := [item], txState := .defer none } })
            ∧ ∀ m, s.link.quietSince = some m →
              let quiet := (s.now - m.time).toNat
              (m.old = true ∨ s.par .idleGap + w ≤ quiet → t = keyed s.link)
                ∧ (m.old = false → quiet < s.par .idleGap →
                  t = { s with link := { s.link with tx := [item], txState := .defer none } })
                ∧ (m.old = false → s.par .idleGap ≤ quiet → quiet < s.par .idleGap + w →
                  (register.toNat % w ≠ 0 →
                      t = { s with
                            link :=
                              { s.link with
                                tx := [item], register := register, txState := .backoff (register.toNat % w) } })
                    ∧ (register.toNat % w = 0 → t = keyed { s.link with register := register })))

/-! ### Steering -/

/-- A strobe while STR_RDY is asserted takes one repeat from the head order, which leaves at 0 and else moves to the tail; the
new head is presented with its six bytes, and with no order left STR_RDY falls. A strobe while STR_RDY is deasserted changes
nothing (R140, R141). That the presentation is made inside the event, and the count of presentations, are the
model's choice (log entry 4). -/
def Obligations.StrobeCountsOneRepeat : Prop :=
  ∀ s : State, s.resetHeld = false →
    (s.steer.strRdy = false → exec .takenStrobe s = .next s)
      ∧ ∀ head rest, s.steer.strRdy = true → s.steer.orders = head :: rest →
        ∃ t, exec .takenStrobe s = .next t
          ∧ t.steer.orders =
              (if head.repeats ≤ 1 then rest else rest ++ [{ head with repeats := head.repeats - 1 }])
          ∧ t.steer.admission =
              (if head.repeats ≤ 1 then s.steer.admission.filter fun x => x != head.radio else s.steer.admission)
          ∧ (t.steer.orders = [] → t.steer.strRdy = false)
          ∧ (∀ next others, t.steer.orders = next :: others →
              t.steer.strRdy = true ∧ t.steer.presentations = s.steer.presentations + 1
                ∧ t.steer.strDat =
                    [if next.kind = .move then 1 else 2, next.radio.extractLsb' 16 8, next.radio.extractLsb' 8 8,
                      next.radio.extractLsb' 0 8, next.channel, next.site])
          ∧ t = { s with steer := t.steer }

/-! ### The maintenance port -/

/-- STATUS shows its seven bytes in every port state, and PEEK ATTENTION the six flags on a READY port; neither changes
anything but what was clocked out (R184, R185, R186, R187). -/
def Obligations.StatusAndPeekShowAndChangeNothing : Prop :=
  ∀ (s : State) (n : Nat), s.resetHeld = false → s.port.frame = none →
    (7 ≤ n → exec (.status (.whole n)) s = .next
        { s with
          port :=
            { s.port with
              mntDo :=
                [0x00,
                  match s.loader.opState with | .loading => 0 | .configFault => 1 | .running => 2 | .flushing => 3,
                  if s.port.busy then 1 else 0,
                  match s.port.hold with | .opened => 0 | .hold => 1 | .closed => 2,
                  if s.port.listenOnly then 1 else 0,
                  BitVec.ofNat 8 s.occupancy,
                  BitVec.ofNat 8 (heldCount s.nego.departures),
                  match s.link.window with | some w => BitVec.ofNat 8 w | none => 0]
                ++ List.replicate (n - 7) 0x00 } })
      ∧ (s.port.busy = false → 1 ≤ n → ∃ shown : Byte, exec (.peekAttention (.whole n)) s = .next
            { s with port := { s.port with mntDo := [0x00, shown] ++ List.replicate (n - 1) 0x00 } }
          ∧ (shown.getLsbD 0 = s.port.flags.configFault ∧ shown.getLsbD 1 = s.port.flags.rxOverflow
            ∧ shown.getLsbD 2 = s.port.flags.reportGap ∧ shown.getLsbD 3 = s.port.flags.rosterFull
            ∧ shown.getLsbD 4 = s.port.flags.siteClash ∧ shown.getLsbD 5 = s.port.flags.cmdDropped
            ∧ shown.getLsbD 6 = false ∧ shown.getLsbD 7 = false))

/-- TAKE ATTENTION shows the six flags as they stand when the command byte arrives, in the byte of PEEK ATTENTION, and clears at
the end of its frame exactly those that the reply showed set: a flag set between the two stays set, and a frame that ends
early clears none and sets CMD_DROPPED (R184, R187, R188). -/
def Obligations.TakeAttentionClearsShownFlags : Prop :=
  ∀ (s : State) (n : Nat), s.portReady = true →
    ∃ (opened : State) (shown : Byte), exec (.takeAttention .command) s = .next opened
      ∧ opened = { s with port := { s.port with frame := opened.port.frame } }
      ∧ (shown.getLsbD 0 = s.port.flags.configFault ∧ shown.getLsbD 1 = s.port.flags.rxOverflow
        ∧ shown.getLsbD 2 = s.port.flags.reportGap ∧ shown.getLsbD 3 = s.port.flags.rosterFull
        ∧ shown.getLsbD 4 = s.port.flags.siteClash ∧ shown.getLsbD 5 = s.port.flags.cmdDropped
        ∧ shown.getLsbD 6 = false ∧ shown.getLsbD 7 = false)
      ∧ ∀ (u : State), u.resetHeld = false → u.port.frame = opened.port.frame →
        (1 ≤ n → ∃ t, exec (.takeAttention (.rise n)) u = .next t
          ∧ t.port.flags =
              { configFault := u.port.flags.configFault && !s.port.flags.configFault
                rxOverflow := u.port.flags.rxOverflow && !s.port.flags.rxOverflow
                reportGap := u.port.flags.reportGap && !s.port.flags.reportGap
                rosterFull := u.port.flags.rosterFull && !s.port.flags.rosterFull
                siteClash := u.port.flags.siteClash && !s.port.flags.siteClash
                cmdDropped := u.port.flags.cmdDropped && !s.port.flags.cmdDropped }
          ∧ t.port.mntDo = [0x00, shown] ++ List.replicate (n - 1) 0x00
          ∧ t = { u with port := { u.port with frame := none, mntDo := t.port.mntDo, flags := t.port.flags } })
          ∧ exec (.takeAttention (.rise 0)) u = .next
              { u with
                port :=
                  { u.port with
                    frame := none, mntDo := [0x00], flags := { u.port.flags with cmdDropped := true } } }

/-- SELECT TABLE sets the cursor, or is refused for a table above 7; READ ENTRY shows the holder and starts a fetch at the
cursor, which moves on below the end of the table; the completion copies the record or the end marker into the holder. Every
record is 40 bytes with its table number and its position, or 0xFF, in front; an end marker and a free position show 0 from
byte 2 on, and a held position shows the fields of its table's layout and 0 in the bytes that the layout does not list
(R189, R190, R191; 00_scope.md, 7.4). -/
def Obligations.TablesAreReadThroughTheHolder : Prop :=
  (∀ (s : State) (table index : Byte) (n : Nat), s.portReady = true → 2 ≤ n →
      exec (.selectTable table index (.whole n)) s = .next
        { s with
          port :=
            if h : table.toNat < 8 then
              { s.port with
                cursorTable := ⟨table.toNat, h⟩, cursorIndex := index, mntDo := List.replicate (n + 1) 0x00 }
            else
              { s.port with
                mntDo := List.replicate (n + 1) 0x00, flags := { s.port.flags with cmdDropped := true } } })
    ∧ (∀ (s : State) (n : Nat), s.portReady = true → s.port.holder.length = 40 → 40 ≤ n →
        let size : Nat := [64, 32, 128, 8, 4, 2, 8, 8].getD s.port.cursorTable.val 0
        let within : Prop := s.port.cursorIndex.toNat < size
        exec (.readEntry (.whole n)) s = .next
          { s with
            port :=
              { s.port with
                busy := true
                fetch := some
                  { table := s.port.cursorTable, position := if within then some s.port.cursorIndex.toNat else none }
                cursorIndex := if within then s.port.cursorIndex + 1 else s.port.cursorIndex
                mntDo := [0x00] ++ s.port.holder ++ List.replicate (n - 40) 0x00 } })
    ∧ ∀ (s : State) (x : Fetch), s.resetHeld = false → s.port.fetch = some x →
        ∃ t, exec .fetchComplete s = .next t
          ∧ t.port.holder.length = 40
          ∧ t.port.holder.take 2 =
              [BitVec.ofNat 8 x.table.val, match x.position with | some i => BitVec.ofNat 8 i | none => 0xFF]
          ∧ (x.position = none → ZeroFrom 2 t.port.holder)
          ∧ (∀ i, x.position = some i →
            (∀ k : Fin 64, x.table = 0 → i = k.val → Recorded t.port.holder s.roster.entries[k] s.rosterFields 39)
              ∧ (∀ k : Fin 32, x.table = 1 → i = k.val → Recorded t.port.holder s.strays.entries[k] s.strayFields 16)
              ∧ (∀ k : Fin 128, x.table = 2 → i = k.val → Recorded t.port.holder s.hearing.table[k] s.hearingFields 14)
              ∧ (∀ k : Fin 8, x.table = 3 → i = k.val →
                Recorded t.port.holder (some s.hearing.neighbours[k]) s.neighbourFields 15)
              ∧ (∀ k : Fin 4, x.table = 4 → i = k.val →
                Recorded t.port.holder s.nego.departures[k] s.departureFields 18)
              ∧ (x.table = 5 → i = 0 → Recorded t.port.holder s.nego.last historyFields 12)
              ∧ (x.table = 5 → i = 1 → Recorded t.port.holder s.nego.previous historyFields 12)
              ∧ (x.table = 6 → Recorded t.port.holder s.steer.orders[i]? orderFields 10)
              ∧ (x.table = 7 → Recorded t.port.holder s.roster.pins[i]? (fun r => [(2, 1, 1), (3, 3, r.toNat)]) 6))
          ∧ t = { s with
                  port := { s.port with holder := t.port.holder, fetch := none, busy := false }
                  freeIndex := t.freeIndex }

/-- READ COUNTERS shows the sixteen counters, high byte first, as they stand when the clear byte arrives; where that byte is not
0 each is reduced at the end of the frame by the value shown, so that an increase in between is kept (R184, R192). -/
def Obligations.ReadCountersReducesByTheShown : Prop :=
  ∀ (s : State) (clear : Byte) (n : Nat), s.portReady = true → 33 ≤ n →
    ∃ opened formed : State,
      exec (.readCounters clear .command) s = .next opened
        ∧ opened = { s with port := { s.port with frame := opened.port.frame } }
        ∧ exec (.readCounters clear .arguments) opened = .next formed
        ∧ formed = { s with port := { s.port with frame := formed.port.frame } }
        ∧ ∀ u : State, u.resetHeld = false → u.port.frame = formed.port.frame →
          ∃ t, exec (.readCounters clear (.rise n)) u = .next t
            ∧ (∀ k : Fin 16, t.port.counters[k] =
                if clear = 0 then u.port.counters[k] else u.port.counters[k] - s.port.counters[k])
            ∧ (∀ k : Fin 16, t.port.mntDo.getD (2 + 2 * k.val) 0 = s.port.counters[k].extractLsb' 8 8
              ∧ t.port.mntDo.getD (3 + 2 * k.val) 0 = s.port.counters[k].extractLsb' 0 8)
            ∧ t.port.mntDo.length = n + 1 ∧ (∀ k, k < 2 ∨ 33 < k → t.port.mntDo.getD k 0 = 0x00)
            ∧ t = { u with port := { u.port with frame := none, mntDo := t.port.mntDo, counters := t.port.counters } }

/-- SET HOLD sets the mode and LISTEN ONLY, in RUNNING, the setting; a change evaluates every HOMED entry, and listen-only mutes
the transmitter, its queue emptied, or makes it IDLE; the setting already held changes nothing; any other argument, or LISTEN
ONLY outside RUNNING, is dropped with CMD_DROPPED (R99, R167, R168, R193, R195). -/
def Obligations.HoldAndListenOnlyAreSet : Prop :=
  ∀ (s : State) (b : Byte) (n : Nat), s.portReady = true → 1 ≤ n →
    let shown : State := { s with port := { s.port with mntDo := List.replicate (n + 1) 0x00 } }
    let dropped : State :=
      { shown with port := { shown.port with flags := { s.port.flags with cmdDropped := true } } }
    (∀ m, (b, m) ∈ [((0 : Byte), HoldMode.opened), (1, HoldMode.hold), (2, HoldMode.closed)] →
        (s.port.hold = m → exec (.setHold b (.whole n)) s = .next shown)
          ∧ (s.port.hold ≠ m → ∃ t, exec (.setHold b (.whole n)) s = .next t
            ∧ t.port = { shown.port with hold := m } ∧ Reevaluated s t (fun _ => True)
            ∧ t = { s with port := t.port, roster := t.roster }))
      ∧ (2 < b.toNat → exec (.setHold b (.whole n)) s = .next dropped)
      ∧ (1 < b.toNat ∨ s.loader.opState ≠ .running → exec (.listenOnly b (.whole n)) s = .next dropped)
      ∧ (s.loader.opState = .running → ∀ on : Bool, b = (if on then 1 else 0) →
        (s.port.listenOnly = on → exec (.listenOnly b (.whole n)) s = .next shown)
          ∧ (s.port.listenOnly ≠ on → ∃ t, exec (.listenOnly b (.whole n)) s = .next t
            ∧ t.port = { shown.port with listenOnly := on } ∧ Reevaluated s t (fun _ => True)
            ∧ (on = false → t.link = { s.link with txState := .idle })
            ∧ (on = true → t.link =
                { s.link with
                  tx := [], txState := .muted
                  quietSince :=
                    if s.link.lnkCd then s.link.quietSince else some { time := s.now, old := false } })
            ∧ t = { s with port := t.port, roster := t.roster, link := t.link }))

/-- PIN adds a valid radio that is not listed to a list of fewer than eight, UNPIN removes a listed one, the rest closing up;
each such change evaluates the radio's HOMED entry. PIN of a listed radio and UNPIN of an unlisted one change nothing; PIN of
an invalid radio, or into a full list, is dropped with CMD_DROPPED (R58, R97, R194). -/
def Obligations.PinListIsEdited : Prop :=
  ∀ (s : State) (r : Radio) (n : Nat), s.portReady = true → 3 ≤ n →
    let shown : State := { s with port := { s.port with mntDo := List.replicate (n + 1) 0x00 } }
    let edited (c : Instr) (pins : List Radio) : Prop :=
      ∃ t, exec c s = .next t ∧ t.roster.pins = pins
        ∧ (∀ i : Fin 64, s.roster.entries[i] = none → t.roster.entries[i] = none)
        ∧ (∀ (i : Fin 64) e, s.roster.entries[i] = some e → ∃ after, t.roster.entries[i] = some after
          ∧ (e.state = .homed ∧ e.radio = r → EvaluatedTo t e after)
          ∧ (¬(e.state = .homed ∧ e.radio = r) → after = e))
        ∧ t = { shown with roster := t.roster }
    (r ∈ s.roster.pins → exec (.pin r (.whole n)) s = .next shown)
      ∧ (r ∉ s.roster.pins → r = 0 ∨ r = 16777215 ∨ 8 ≤ s.roster.pins.length →
          exec (.pin r (.whole n)) s = .next
            { shown with port := { shown.port with flags := { s.port.flags with cmdDropped := true } } })
      ∧ (r ∉ s.roster.pins → r ≠ 0 → r ≠ 16777215 → s.roster.pins.length < 8 →
          edited (.pin r (.whole n)) (s.roster.pins ++ [r]))
      ∧ (r ∉ s.roster.pins → exec (.unpin r (.whole n)) s = .next shown)
      ∧ (r ∈ s.roster.pins → edited (.unpin r (.whole n)) (s.roster.pins.filter fun x => x != r))

/-- FLUSH in RUNNING empties every table, both queues and the steer queue, forgets the neighbours, the locks and the
expectation, ends a transmission, and makes the part FLUSHING and its port BUSY; pin list, history, counters, hold mode,
listen-only, W, register and site time stay. FLUSH_COMPLETE returns to RUNNING and READY; FLUSH in another state is dropped
with CMD_DROPPED (R59, R74, R90, R135, R147, R170, R196, R197). -/
def Obligations.FlushEmptiesTheTablesUntilComplete : Prop :=
  (∀ (s : State) (n : Nat), s.portReady = true → s.loader.opState = .running →
      ∃ t, exec (.flush (.whole n)) s = .next t
        ∧ t.loader = { s.loader with opState := .flushing }
        ∧ t.port = { s.port with busy := true, mntDo := List.replicate (n + 1) 0x00 }
        ∧ (∀ i : Fin 64, t.roster.entries[i] = none) ∧ t.roster.pins = s.roster.pins
        ∧ (∀ j : Fin 32, t.strays.entries[j] = none) ∧ t.strays.cursor = 0
        ∧ t.strays.hearingDeadline = s.strays.hearingDeadline
        ∧ (∀ k : Fin 8, t.hearing.neighbours[k] =
            { s.hearing.neighbours[k] with state := .unknown, lastFrame := none, silence := none })
        ∧ (∀ j : Fin 128, t.hearing.table[j] = none)
        ∧ (∀ p : Fin 4, t.nego.departures[p] = none) ∧ t.nego = { s.nego with departures := t.nego.departures }
        ∧ t.steer.orders = [] ∧ t.steer.strRdy = false
        ∧ t.link =
            { s.link with
              rx := [], tx := []
              txState := if s.port.listenOnly then .muted else .idle
              quietSince :=
                if s.link.txState = .sending ∧ s.link.lnkCd = false then some { time := s.now, old := false }
                else s.link.quietSince }
        ∧ t.intake = { s.intake with expectation := none, locks := Vector.replicate 8 none }
        ∧ t =
            { s with
              loader := t.loader, port := t.port, roster := t.roster, strays := t.strays, hearing := t.hearing
              nego := t.nego, steer := t.steer, link := t.link, intake := t.intake })
    ∧ (∀ (s : State) (n : Nat), s.portReady = true → s.loader.opState ≠ .running →
        exec (.flush (.whole n)) s = .next
          { s with
            port :=
              { s.port with
                mntDo := List.replicate (n + 1) 0x00, flags := { s.port.flags with cmdDropped := true } } })
    ∧ ∀ s : State, s.resetHeld = false → s.loader.opState = .flushing →
        exec .flushComplete s = .next
          { s with loader := { s.loader with opState := .running }, port := { s.port with busy := false } }

/-- A byte that is no command, and on a BUSY port every command but STATUS, is refused: 0x00 is clocked out and CMD_DROPPED is
set. A frame that ends before its arguments and its whole reply were clocked is dropped with CMD_DROPPED too. Neither has
any other effect (R184, R185). A frame taken as its command byte and its rise, with nothing between, is the frame taken whole
(how a frame is divided is the model's choice, log entry 18). The command byte of a frame names its command by the table of
R184, the argument bytes follow it, and a frame without a complete byte is no command. -/
def Obligations.RefusedAndShortFramesAreDropped : Prop :=
  (∀ (s : State) (code : Byte) (n : Nat), s.resetHeld = false → s.port.frame = none →
      code ∉ [(0x01 : Byte), 0x02, 0x03, 0x10, 0x11, 0x12, 0x20, 0x21, 0x22, 0x23, 0x30, 0x31] →
      exec (.unknownCommand code (.whole n)) s = .next
        { s with
          port :=
            { s.port with mntDo := List.replicate (n + 1) 0x00, flags := { s.port.flags with cmdDropped := true } } })
    ∧ (∀ (s : State) (b b' : Byte) (r : Radio) (n : Nat), s.resetHeld = false → s.port.frame = none →
        s.port.busy = true →
        ∀ c ∈ [Instr.peekAttention (.whole n), .takeAttention (.whole n), .selectTable b b' (.whole n),
            .readEntry (.whole n), .readCounters b (.whole n), .setHold b (.whole n), .pin r (.whole n),
            .unpin r (.whole n), .listenOnly b (.whole n), .flush (.whole n), .reload (.whole n)],
          exec c s = .next
            { s with
              port :=
                { s.port with
                  mntDo := List.replicate (n + 1) 0x00, flags := { s.port.flags with cmdDropped := true } } })
    ∧ (∀ (s : State) (code b b' : Byte) (r : Radio) (n : Nat), s.resetHeld = false → s.port.frame = none →
        code ∉ [(0x01 : Byte), 0x02, 0x03, 0x10, 0x11, 0x12, 0x20, 0x21, 0x22, 0x23, 0x30, 0x31] →
        ∀ c ∈ [Instr.status, .peekAttention, .takeAttention, .selectTable b b', .readEntry, .readCounters b, .setHold b,
            .pin r, .unpin r, .listenOnly b, .flush, .reload, .unknownCommand code],
          ∃ opened, exec (c .command) s = .next opened ∧ exec (c (.rise n)) opened = exec (c (.whole n)) s)
    ∧ (frameCommand [] = none
      ∧ (∀ (a b c : Byte) (rest : List Byte),
        ∀ x ∈ [([0x01], Instr.status), ([0x02], .peekAttention), ([0x03], .takeAttention),
            ([0x10, a, b], .selectTable a b), ([0x11], .readEntry), ([0x12, a], .readCounters a),
            ([0x20, a], .setHold a), ([0x21, a, b, c], .pin (a ++ b ++ c)), ([0x22, a, b, c], .unpin (a ++ b ++ c)),
            ([0x23, a], .listenOnly a), ([0x30], .flush), ([0x31], .reload)],
          frameCommand (x.1 ++ rest) = some (x.2 (.whole (x.1.length - 1 + rest.length))))
      ∧ ∀ (code : Byte) (rest : List Byte),
        code ∉ [(0x01 : Byte), 0x02, 0x03, 0x10, 0x11, 0x12, 0x20, 0x21, 0x22, 0x23, 0x30, 0x31] →
        frameCommand (code :: rest) = some (.unknownCommand code (.whole rest.length)))
    ∧ ∀ (s : State) (b b' : Byte) (r : Radio) (n : Nat), s.portReady = true →
        ∀ x ∈ [(Instr.status (.whole n), 7), (.peekAttention (.whole n), 1), (.takeAttention (.whole n), 1),
            (.selectTable b b' (.whole n), 2), (.readEntry (.whole n), 40), (.readCounters b (.whole n), 33),
            (.setHold b (.whole n), 1), (.pin r (.whole n), 3), (.unpin r (.whole n), 3),
            (.listenOnly b (.whole n), 1)],
          n < x.2 →
          ∃ t, exec x.1 s = .next t ∧ t.port.mntDo.length = n + 1
            ∧ t = { s with
                    port :=
                      { s.port with
                        mntDo := t.port.mntDo, flags := { s.port.flags with cmdDropped := true } } }

/-! ### Laws that every step keeps -/

/-- Every step keeps the path locks on valid radios, the levels and filtered levels in their ranges, each radio in one place
of the roster and the stray list, and the pin list within its bounds (R6, R18, R22, R34, R58, R60, R80). -/
def Obligations.EveryStepKeepsTheTableLaws : Prop :=
  ∀ s t : State, step s = .next t →
    (LockLaw s → LockLaw t) ∧ (LevelLaw s → LevelLaw t) ∧ (RadioLaw s → RadioLaw t) ∧ (PinLaw s → PinLaw t)

/-- Every step keeps roster and departure list fitted together, and every hearing entry with a LIVE neighbour and a radio that
is HOMED, ASKING or LEAVING, one for each pair (R32, R34, R80, R90, R111). -/
def Obligations.EveryStepKeepsDeparturesAndHearingsFitted : Prop :=
  ∀ s t : State, step s = .next t → (DepartureLaw s → DepartureLaw t) ∧ (HearingLaw s → HearingLaw t)

/-- Every step keeps the law of the steer queue, over a lawful image and departure list, and presents its head (R137, R140,
R143). That STR_DAT holds no bytes while no order is held is the model's choice (log entry 4). -/
def Obligations.EveryStepKeepsTheSteerLaw : Prop :=
  ∀ s t : State, step s = .next t →
    (PresentationLaw s → PresentationLaw t)
      ∧ (ImageLaw s ∧ DepartureLaw s ∧ SteerLaw s → ImageLaw t ∧ DepartureLaw t ∧ SteerLaw t)

/-- Every step keeps the laws of the queues and the key, of the backoff, and of the frames that wait (R148, R149, R151, R153,
R155, R158, R160, R163, R164). -/
def Obligations.EveryStepKeepsTheLinkLaws : Prop :=
  ∀ s t : State, step s = .next t →
    (LinkLaw s → LinkLaw t) ∧ (BackoffLaw s → BackoffLaw t) ∧ (FrameLaw s → FrameLaw t)

/-- Every step keeps the port BUSY exactly while a fetch or a flush is in progress, and the holder a record of 40 bytes (R185,
R190, R191, R196, R197). -/
def Obligations.EveryStepKeepsThePortLaw : Prop :=
  ∀ s t : State, step s = .next t → PortLaw s → PortLaw t

/-- The state after hard reset meets every law (for the level of LNK_CD, the operating state in reset and the empty STR_DAT, the
model's choices, log entries 1, 4 and 5). -/
def Obligations.ResetMeetsEveryLaw : Prop :=
  LockLaw State.reset ∧ LevelLaw State.reset ∧ RadioLaw State.reset ∧ PinLaw State.reset ∧ DepartureLaw State.reset
    ∧ HearingLaw State.reset ∧ ImageLaw State.reset ∧ PresentationLaw State.reset ∧ SteerLaw State.reset
    ∧ LinkLaw State.reset ∧ BackoffLaw State.reset ∧ FrameLaw State.reset ∧ PortLaw State.reset
end

