-- ==== Sys2Proof/Laws/State.lean ====
section
/-! SUPPORT. One lemma per field of the state and named update, and per field of the port and counter or flag update: all by
`rfl` or one case split, all for `simp`. -/

namespace Sys2Proof.Machine

/-! ### The named updates of the state -/

@[simp] theorem State.withReset_resetHeld (s : State) (x : Bool) : (s.withReset x).resetHeld = x := rfl
@[simp] theorem State.withReset_now (s : State) (x : Bool) : (s.withReset x).now = s.now := rfl
@[simp] theorem State.withReset_intake (s : State) (x : Bool) : (s.withReset x).intake = s.intake := rfl
@[simp] theorem State.withReset_roster (s : State) (x : Bool) : (s.withReset x).roster = s.roster := rfl
@[simp] theorem State.withReset_strays (s : State) (x : Bool) : (s.withReset x).strays = s.strays := rfl
@[simp] theorem State.withReset_hearing (s : State) (x : Bool) : (s.withReset x).hearing = s.hearing := rfl
@[simp] theorem State.withReset_nego (s : State) (x : Bool) : (s.withReset x).nego = s.nego := rfl
@[simp] theorem State.withReset_steer (s : State) (x : Bool) : (s.withReset x).steer = s.steer := rfl
@[simp] theorem State.withReset_link (s : State) (x : Bool) : (s.withReset x).link = s.link := rfl
@[simp] theorem State.withReset_loader (s : State) (x : Bool) : (s.withReset x).loader = s.loader := rfl
@[simp] theorem State.withReset_port (s : State) (x : Bool) : (s.withReset x).port = s.port := rfl
@[simp] theorem State.withReset_freeIndex (s : State) (x : Bool) : (s.withReset x).freeIndex = s.freeIndex := rfl
@[simp] theorem State.withReset_pending (s : State) (x : Bool) : (s.withReset x).pending = s.pending := rfl
@[simp] theorem State.withNow_resetHeld (s : State) (x : Time) : (s.withNow x).resetHeld = s.resetHeld := rfl
@[simp] theorem State.withNow_now (s : State) (x : Time) : (s.withNow x).now = x := rfl
@[simp] theorem State.withNow_intake (s : State) (x : Time) : (s.withNow x).intake = s.intake := rfl
@[simp] theorem State.withNow_roster (s : State) (x : Time) : (s.withNow x).roster = s.roster := rfl
@[simp] theorem State.withNow_strays (s : State) (x : Time) : (s.withNow x).strays = s.strays := rfl
@[simp] theorem State.withNow_hearing (s : State) (x : Time) : (s.withNow x).hearing = s.hearing := rfl
@[simp] theorem State.withNow_nego (s : State) (x : Time) : (s.withNow x).nego = s.nego := rfl
@[simp] theorem State.withNow_steer (s : State) (x : Time) : (s.withNow x).steer = s.steer := rfl
@[simp] theorem State.withNow_link (s : State) (x : Time) : (s.withNow x).link = s.link := rfl
@[simp] theorem State.withNow_loader (s : State) (x : Time) : (s.withNow x).loader = s.loader := rfl
@[simp] theorem State.withNow_port (s : State) (x : Time) : (s.withNow x).port = s.port := rfl
@[simp] theorem State.withNow_freeIndex (s : State) (x : Time) : (s.withNow x).freeIndex = s.freeIndex := rfl
@[simp] theorem State.withNow_pending (s : State) (x : Time) : (s.withNow x).pending = s.pending := rfl
@[simp] theorem State.withIntake_resetHeld (s : State) (x : Intake) : (s.withIntake x).resetHeld = s.resetHeld := rfl
@[simp] theorem State.withIntake_now (s : State) (x : Intake) : (s.withIntake x).now = s.now := rfl
@[simp] theorem State.withIntake_intake (s : State) (x : Intake) : (s.withIntake x).intake = x := rfl
@[simp] theorem State.withIntake_roster (s : State) (x : Intake) : (s.withIntake x).roster = s.roster := rfl
@[simp] theorem State.withIntake_strays (s : State) (x : Intake) : (s.withIntake x).strays = s.strays := rfl
@[simp] theorem State.withIntake_hearing (s : State) (x : Intake) : (s.withIntake x).hearing = s.hearing := rfl
@[simp] theorem State.withIntake_nego (s : State) (x : Intake) : (s.withIntake x).nego = s.nego := rfl
@[simp] theorem State.withIntake_steer (s : State) (x : Intake) : (s.withIntake x).steer = s.steer := rfl
@[simp] theorem State.withIntake_link (s : State) (x : Intake) : (s.withIntake x).link = s.link := rfl
@[simp] theorem State.withIntake_loader (s : State) (x : Intake) : (s.withIntake x).loader = s.loader := rfl
@[simp] theorem State.withIntake_port (s : State) (x : Intake) : (s.withIntake x).port = s.port := rfl
@[simp] theorem State.withIntake_freeIndex (s : State) (x : Intake) : (s.withIntake x).freeIndex = s.freeIndex := rfl
@[simp] theorem State.withIntake_pending (s : State) (x : Intake) : (s.withIntake x).pending = s.pending := rfl
@[simp] theorem State.withRoster_resetHeld (s : State) (x : RosterEngine) : (s.withRoster x).resetHeld = s.resetHeld := rfl
@[simp] theorem State.withRoster_now (s : State) (x : RosterEngine) : (s.withRoster x).now = s.now := rfl
@[simp] theorem State.withRoster_intake (s : State) (x : RosterEngine) : (s.withRoster x).intake = s.intake := rfl
@[simp] theorem State.withRoster_roster (s : State) (x : RosterEngine) : (s.withRoster x).roster = x := rfl
@[simp] theorem State.withRoster_strays (s : State) (x : RosterEngine) : (s.withRoster x).strays = s.strays := rfl
@[simp] theorem State.withRoster_hearing (s : State) (x : RosterEngine) : (s.withRoster x).hearing = s.hearing := rfl
@[simp] theorem State.withRoster_nego (s : State) (x : RosterEngine) : (s.withRoster x).nego = s.nego := rfl
@[simp] theorem State.withRoster_steer (s : State) (x : RosterEngine) : (s.withRoster x).steer = s.steer := rfl
@[simp] theorem State.withRoster_link (s : State) (x : RosterEngine) : (s.withRoster x).link = s.link := rfl
@[simp] theorem State.withRoster_loader (s : State) (x : RosterEngine) : (s.withRoster x).loader = s.loader := rfl
@[simp] theorem State.withRoster_port (s : State) (x : RosterEngine) : (s.withRoster x).port = s.port := rfl
@[simp] theorem State.withRoster_freeIndex (s : State) (x : RosterEngine) : (s.withRoster x).freeIndex = s.freeIndex := rfl
@[simp] theorem State.withRoster_pending (s : State) (x : RosterEngine) : (s.withRoster x).pending = s.pending := rfl
@[simp] theorem State.withStrays_resetHeld (s : State) (x : StrayTracker) : (s.withStrays x).resetHeld = s.resetHeld := rfl
@[simp] theorem State.withStrays_now (s : State) (x : StrayTracker) : (s.withStrays x).now = s.now := rfl
@[simp] theorem State.withStrays_intake (s : State) (x : StrayTracker) : (s.withStrays x).intake = s.intake := rfl
@[simp] theorem State.withStrays_roster (s : State) (x : StrayTracker) : (s.withStrays x).roster = s.roster := rfl
@[simp] theorem State.withStrays_strays (s : State) (x : StrayTracker) : (s.withStrays x).strays = x := rfl
@[simp] theorem State.withStrays_hearing (s : State) (x : StrayTracker) : (s.withStrays x).hearing = s.hearing := rfl
@[simp] theorem State.withStrays_nego (s : State) (x : StrayTracker) : (s.withStrays x).nego = s.nego := rfl
@[simp] theorem State.withStrays_steer (s : State) (x : StrayTracker) : (s.withStrays x).steer = s.steer := rfl
@[simp] theorem State.withStrays_link (s : State) (x : StrayTracker) : (s.withStrays x).link = s.link := rfl
@[simp] theorem State.withStrays_loader (s : State) (x : StrayTracker) : (s.withStrays x).loader = s.loader := rfl
@[simp] theorem State.withStrays_port (s : State) (x : StrayTracker) : (s.withStrays x).port = s.port := rfl
@[simp] theorem State.withStrays_freeIndex (s : State) (x : StrayTracker) : (s.withStrays x).freeIndex = s.freeIndex := rfl
@[simp] theorem State.withStrays_pending (s : State) (x : StrayTracker) : (s.withStrays x).pending = s.pending := rfl
@[simp] theorem State.withHearing_resetHeld (s : State) (x : Hearing) : (s.withHearing x).resetHeld = s.resetHeld := rfl
@[simp] theorem State.withHearing_now (s : State) (x : Hearing) : (s.withHearing x).now = s.now := rfl
@[simp] theorem State.withHearing_intake (s : State) (x : Hearing) : (s.withHearing x).intake = s.intake := rfl
@[simp] theorem State.withHearing_roster (s : State) (x : Hearing) : (s.withHearing x).roster = s.roster := rfl
@[simp] theorem State.withHearing_strays (s : State) (x : Hearing) : (s.withHearing x).strays = s.strays := rfl
@[simp] theorem State.withHearing_hearing (s : State) (x : Hearing) : (s.withHearing x).hearing = x := rfl
@[simp] theorem State.withHearing_nego (s : State) (x : Hearing) : (s.withHearing x).nego = s.nego := rfl
@[simp] theorem State.withHearing_steer (s : State) (x : Hearing) : (s.withHearing x).steer = s.steer := rfl
@[simp] theorem State.withHearing_link (s : State) (x : Hearing) : (s.withHearing x).link = s.link := rfl
@[simp] theorem State.withHearing_loader (s : State) (x : Hearing) : (s.withHearing x).loader = s.loader := rfl
@[simp] theorem State.withHearing_port (s : State) (x : Hearing) : (s.withHearing x).port = s.port := rfl
@[simp] theorem State.withHearing_freeIndex (s : State) (x : Hearing) : (s.withHearing x).freeIndex = s.freeIndex := rfl
@[simp] theorem State.withHearing_pending (s : State) (x : Hearing) : (s.withHearing x).pending = s.pending := rfl
@[simp] theorem State.withNego_resetHeld (s : State) (x : Negotiator) : (s.withNego x).resetHeld = s.resetHeld := rfl
@[simp] theorem State.withNego_now (s : State) (x : Negotiator) : (s.withNego x).now = s.now := rfl
@[simp] theorem State.withNego_intake (s : State) (x : Negotiator) : (s.withNego x).intake = s.intake := rfl
@[simp] theorem State.withNego_roster (s : State) (x : Negotiator) : (s.withNego x).roster = s.roster := rfl
@[simp] theorem State.withNego_strays (s : State) (x : Negotiator) : (s.withNego x).strays = s.strays := rfl
@[simp] theorem State.withNego_hearing (s : State) (x : Negotiator) : (s.withNego x).hearing = s.hearing := rfl
@[simp] theorem State.withNego_nego (s : State) (x : Negotiator) : (s.withNego x).nego = x := rfl
@[simp] theorem State.withNego_steer (s : State) (x : Negotiator) : (s.withNego x).steer = s.steer := rfl
@[simp] theorem State.withNego_link (s : State) (x : Negotiator) : (s.withNego x).link = s.link := rfl
@[simp] theorem State.withNego_loader (s : State) (x : Negotiator) : (s.withNego x).loader = s.loader := rfl
@[simp] theorem State.withNego_port (s : State) (x : Negotiator) : (s.withNego x).port = s.port := rfl
@[simp] theorem State.withNego_freeIndex (s : State) (x : Negotiator) : (s.withNego x).freeIndex = s.freeIndex := rfl
@[simp] theorem State.withNego_pending (s : State) (x : Negotiator) : (s.withNego x).pending = s.pending := rfl
@[simp] theorem State.withSteer_resetHeld (s : State) (x : SteerQueue) : (s.withSteer x).resetHeld = s.resetHeld := rfl
@[simp] theorem State.withSteer_now (s : State) (x : SteerQueue) : (s.withSteer x).now = s.now := rfl
@[simp] theorem State.withSteer_intake (s : State) (x : SteerQueue) : (s.withSteer x).intake = s.intake := rfl
@[simp] theorem State.withSteer_roster (s : State) (x : SteerQueue) : (s.withSteer x).roster = s.roster := rfl
@[simp] theorem State.withSteer_strays (s : State) (x : SteerQueue) : (s.withSteer x).strays = s.strays := rfl
@[simp] theorem State.withSteer_hearing (s : State) (x : SteerQueue) : (s.withSteer x).hearing = s.hearing := rfl
@[simp] theorem State.withSteer_nego (s : State) (x : SteerQueue) : (s.withSteer x).nego = s.nego := rfl
@[simp] theorem State.withSteer_steer (s : State) (x : SteerQueue) : (s.withSteer x).steer = x := rfl
@[simp] theorem State.withSteer_link (s : State) (x : SteerQueue) : (s.withSteer x).link = s.link := rfl
@[simp] theorem State.withSteer_loader (s : State) (x : SteerQueue) : (s.withSteer x).loader = s.loader := rfl
@[simp] theorem State.withSteer_port (s : State) (x : SteerQueue) : (s.withSteer x).port = s.port := rfl
@[simp] theorem State.withSteer_freeIndex (s : State) (x : SteerQueue) : (s.withSteer x).freeIndex = s.freeIndex := rfl
@[simp] theorem State.withSteer_pending (s : State) (x : SteerQueue) : (s.withSteer x).pending = s.pending := rfl
@[simp] theorem State.withLink_resetHeld (s : State) (x : Link) : (s.withLink x).resetHeld = s.resetHeld := rfl
@[simp] theorem State.withLink_now (s : State) (x : Link) : (s.withLink x).now = s.now := rfl
@[simp] theorem State.withLink_intake (s : State) (x : Link) : (s.withLink x).intake = s.intake := rfl
@[simp] theorem State.withLink_roster (s : State) (x : Link) : (s.withLink x).roster = s.roster := rfl
@[simp] theorem State.withLink_strays (s : State) (x : Link) : (s.withLink x).strays = s.strays := rfl
@[simp] theorem State.withLink_hearing (s : State) (x : Link) : (s.withLink x).hearing = s.hearing := rfl
@[simp] theorem State.withLink_nego (s : State) (x : Link) : (s.withLink x).nego = s.nego := rfl
@[simp] theorem State.withLink_steer (s : State) (x : Link) : (s.withLink x).steer = s.steer := rfl
@[simp] theorem State.withLink_link (s : State) (x : Link) : (s.withLink x).link = x := rfl
@[simp] theorem State.withLink_loader (s : State) (x : Link) : (s.withLink x).loader = s.loader := rfl
@[simp] theorem State.withLink_port (s : State) (x : Link) : (s.withLink x).port = s.port := rfl
@[simp] theorem State.withLink_freeIndex (s : State) (x : Link) : (s.withLink x).freeIndex = s.freeIndex := rfl
@[simp] theorem State.withLink_pending (s : State) (x : Link) : (s.withLink x).pending = s.pending := rfl
@[simp] theorem State.withLoader_resetHeld (s : State) (x : Loader) : (s.withLoader x).resetHeld = s.resetHeld := rfl
@[simp] theorem State.withLoader_now (s : State) (x : Loader) : (s.withLoader x).now = s.now := rfl
@[simp] theorem State.withLoader_intake (s : State) (x : Loader) : (s.withLoader x).intake = s.intake := rfl
@[simp] theorem State.withLoader_roster (s : State) (x : Loader) : (s.withLoader x).roster = s.roster := rfl
@[simp] theorem State.withLoader_strays (s : State) (x : Loader) : (s.withLoader x).strays = s.strays := rfl
@[simp] theorem State.withLoader_hearing (s : State) (x : Loader) : (s.withLoader x).hearing = s.hearing := rfl
@[simp] theorem State.withLoader_nego (s : State) (x : Loader) : (s.withLoader x).nego = s.nego := rfl
@[simp] theorem State.withLoader_steer (s : State) (x : Loader) : (s.withLoader x).steer = s.steer := rfl
@[simp] theorem State.withLoader_link (s : State) (x : Loader) : (s.withLoader x).link = s.link := rfl
@[simp] theorem State.withLoader_loader (s : State) (x : Loader) : (s.withLoader x).loader = x := rfl
@[simp] theorem State.withLoader_port (s : State) (x : Loader) : (s.withLoader x).port = s.port := rfl
@[simp] theorem State.withLoader_freeIndex (s : State) (x : Loader) : (s.withLoader x).freeIndex = s.freeIndex := rfl
@[simp] theorem State.withLoader_pending (s : State) (x : Loader) : (s.withLoader x).pending = s.pending := rfl
@[simp] theorem State.withPort_resetHeld (s : State) (x : Port) : (s.withPort x).resetHeld = s.resetHeld := rfl
@[simp] theorem State.withPort_now (s : State) (x : Port) : (s.withPort x).now = s.now := rfl
@[simp] theorem State.withPort_intake (s : State) (x : Port) : (s.withPort x).intake = s.intake := rfl
@[simp] theorem State.withPort_roster (s : State) (x : Port) : (s.withPort x).roster = s.roster := rfl
@[simp] theorem State.withPort_strays (s : State) (x : Port) : (s.withPort x).strays = s.strays := rfl
@[simp] theorem State.withPort_hearing (s : State) (x : Port) : (s.withPort x).hearing = s.hearing := rfl
@[simp] theorem State.withPort_nego (s : State) (x : Port) : (s.withPort x).nego = s.nego := rfl
@[simp] theorem State.withPort_steer (s : State) (x : Port) : (s.withPort x).steer = s.steer := rfl
@[simp] theorem State.withPort_link (s : State) (x : Port) : (s.withPort x).link = s.link := rfl
@[simp] theorem State.withPort_loader (s : State) (x : Port) : (s.withPort x).loader = s.loader := rfl
@[simp] theorem State.withPort_port (s : State) (x : Port) : (s.withPort x).port = x := rfl
@[simp] theorem State.withPort_freeIndex (s : State) (x : Port) : (s.withPort x).freeIndex = s.freeIndex := rfl
@[simp] theorem State.withPort_pending (s : State) (x : Port) : (s.withPort x).pending = s.pending := rfl
@[simp] theorem State.withFreeIndex_resetHeld (s : State) (x : Nat) : (s.withFreeIndex x).resetHeld = s.resetHeld := rfl
@[simp] theorem State.withFreeIndex_now (s : State) (x : Nat) : (s.withFreeIndex x).now = s.now := rfl
@[simp] theorem State.withFreeIndex_intake (s : State) (x : Nat) : (s.withFreeIndex x).intake = s.intake := rfl
@[simp] theorem State.withFreeIndex_roster (s : State) (x : Nat) : (s.withFreeIndex x).roster = s.roster := rfl
@[simp] theorem State.withFreeIndex_strays (s : State) (x : Nat) : (s.withFreeIndex x).strays = s.strays := rfl
@[simp] theorem State.withFreeIndex_hearing (s : State) (x : Nat) : (s.withFreeIndex x).hearing = s.hearing := rfl
@[simp] theorem State.withFreeIndex_nego (s : State) (x : Nat) : (s.withFreeIndex x).nego = s.nego := rfl
@[simp] theorem State.withFreeIndex_steer (s : State) (x : Nat) : (s.withFreeIndex x).steer = s.steer := rfl
@[simp] theorem State.withFreeIndex_link (s : State) (x : Nat) : (s.withFreeIndex x).link = s.link := rfl
@[simp] theorem State.withFreeIndex_loader (s : State) (x : Nat) : (s.withFreeIndex x).loader = s.loader := rfl
@[simp] theorem State.withFreeIndex_port (s : State) (x : Nat) : (s.withFreeIndex x).port = s.port := rfl
@[simp] theorem State.withFreeIndex_freeIndex (s : State) (x : Nat) : (s.withFreeIndex x).freeIndex = x := rfl
@[simp] theorem State.withFreeIndex_pending (s : State) (x : Nat) : (s.withFreeIndex x).pending = s.pending := rfl
@[simp] theorem State.withPending_resetHeld (s : State) (x : List Instr) : (s.withPending x).resetHeld = s.resetHeld := rfl
@[simp] theorem State.withPending_now (s : State) (x : List Instr) : (s.withPending x).now = s.now := rfl
@[simp] theorem State.withPending_intake (s : State) (x : List Instr) : (s.withPending x).intake = s.intake := rfl
@[simp] theorem State.withPending_roster (s : State) (x : List Instr) : (s.withPending x).roster = s.roster := rfl
@[simp] theorem State.withPending_strays (s : State) (x : List Instr) : (s.withPending x).strays = s.strays := rfl
@[simp] theorem State.withPending_hearing (s : State) (x : List Instr) : (s.withPending x).hearing = s.hearing := rfl
@[simp] theorem State.withPending_nego (s : State) (x : List Instr) : (s.withPending x).nego = s.nego := rfl
@[simp] theorem State.withPending_steer (s : State) (x : List Instr) : (s.withPending x).steer = s.steer := rfl
@[simp] theorem State.withPending_link (s : State) (x : List Instr) : (s.withPending x).link = s.link := rfl
@[simp] theorem State.withPending_loader (s : State) (x : List Instr) : (s.withPending x).loader = s.loader := rfl
@[simp] theorem State.withPending_port (s : State) (x : List Instr) : (s.withPending x).port = s.port := rfl
@[simp] theorem State.withPending_freeIndex (s : State) (x : List Instr) : (s.withPending x).freeIndex = s.freeIndex := rfl
@[simp] theorem State.withPending_pending (s : State) (x : List Instr) : (s.withPending x).pending = x := rfl

/-! ### The reads that every block makes -/

@[simp] theorem State.withReset_par (s : State) (x : Bool) (p : Config.Param) : (s.withReset x).par p = s.par p := rfl
@[simp] theorem State.withReset_ownSite (s : State) (x : Bool) : (s.withReset x).ownSite = s.ownSite := rfl
@[simp] theorem State.withReset_running (s : State) (x : Bool) : (s.withReset x).running = s.running := rfl
@[simp] theorem State.withReset_loaded (s : State) (x : Bool) : (s.withReset x).loaded = s.loaded := rfl
@[simp] theorem State.withReset_due (s : State) (x : Bool) (t : Nat) : (s.withReset x).due t = s.due t := rfl
@[simp] theorem State.withNow_par (s : State) (x : Time) (p : Config.Param) : (s.withNow x).par p = s.par p := rfl
@[simp] theorem State.withNow_ownSite (s : State) (x : Time) : (s.withNow x).ownSite = s.ownSite := rfl
@[simp] theorem State.withNow_running (s : State) (x : Time) : (s.withNow x).running = s.running := rfl
@[simp] theorem State.withNow_loaded (s : State) (x : Time) : (s.withNow x).loaded = s.loaded := rfl
@[simp] theorem State.withIntake_par (s : State) (x : Intake) (p : Config.Param) : (s.withIntake x).par p = s.par p := rfl
@[simp] theorem State.withIntake_ownSite (s : State) (x : Intake) : (s.withIntake x).ownSite = s.ownSite := rfl
@[simp] theorem State.withIntake_running (s : State) (x : Intake) : (s.withIntake x).running = s.running := rfl
@[simp] theorem State.withIntake_loaded (s : State) (x : Intake) : (s.withIntake x).loaded = s.loaded := rfl
@[simp] theorem State.withIntake_due (s : State) (x : Intake) (t : Nat) : (s.withIntake x).due t = s.due t := rfl
@[simp] theorem State.withRoster_par (s : State) (x : RosterEngine) (p : Config.Param) : (s.withRoster x).par p = s.par p :=
  rfl
@[simp] theorem State.withRoster_ownSite (s : State) (x : RosterEngine) : (s.withRoster x).ownSite = s.ownSite := rfl
@[simp] theorem State.withRoster_running (s : State) (x : RosterEngine) : (s.withRoster x).running = s.running := rfl
@[simp] theorem State.withRoster_loaded (s : State) (x : RosterEngine) : (s.withRoster x).loaded = s.loaded := rfl
@[simp] theorem State.withRoster_due (s : State) (x : RosterEngine) (t : Nat) : (s.withRoster x).due t = s.due t := rfl
@[simp] theorem State.withStrays_par (s : State) (x : StrayTracker) (p : Config.Param) : (s.withStrays x).par p = s.par p :=
  rfl
@[simp] theorem State.withStrays_ownSite (s : State) (x : StrayTracker) : (s.withStrays x).ownSite = s.ownSite := rfl
@[simp] theorem State.withStrays_running (s : State) (x : StrayTracker) : (s.withStrays x).running = s.running := rfl
@[simp] theorem State.withStrays_loaded (s : State) (x : StrayTracker) : (s.withStrays x).loaded = s.loaded := rfl
@[simp] theorem State.withStrays_due (s : State) (x : StrayTracker) (t : Nat) : (s.withStrays x).due t = s.due t := rfl
@[simp] theorem State.withHearing_par (s : State) (x : Hearing) (p : Config.Param) : (s.withHearing x).par p = s.par p := rfl
@[simp] theorem State.withHearing_ownSite (s : State) (x : Hearing) : (s.withHearing x).ownSite = s.ownSite := rfl
@[simp] theorem State.withHearing_running (s : State) (x : Hearing) : (s.withHearing x).running = s.running := rfl
@[simp] theorem State.withHearing_loaded (s : State) (x : Hearing) : (s.withHearing x).loaded = s.loaded := rfl
@[simp] theorem State.withHearing_due (s : State) (x : Hearing) (t : Nat) : (s.withHearing x).due t = s.due t := rfl
@[simp] theorem State.withNego_par (s : State) (x : Negotiator) (p : Config.Param) : (s.withNego x).par p = s.par p := rfl
@[simp] theorem State.withNego_ownSite (s : State) (x : Negotiator) : (s.withNego x).ownSite = s.ownSite := rfl
@[simp] theorem State.withNego_running (s : State) (x : Negotiator) : (s.withNego x).running = s.running := rfl
@[simp] theorem State.withNego_loaded (s : State) (x : Negotiator) : (s.withNego x).loaded = s.loaded := rfl
@[simp] theorem State.withNego_due (s : State) (x : Negotiator) (t : Nat) : (s.withNego x).due t = s.due t := rfl
@[simp] theorem State.withSteer_par (s : State) (x : SteerQueue) (p : Config.Param) : (s.withSteer x).par p = s.par p := rfl
@[simp] theorem State.withSteer_ownSite (s : State) (x : SteerQueue) : (s.withSteer x).ownSite = s.ownSite := rfl
@[simp] theorem State.withSteer_running (s : State) (x : SteerQueue) : (s.withSteer x).running = s.running := rfl
@[simp] theorem State.withSteer_loaded (s : State) (x : SteerQueue) : (s.withSteer x).loaded = s.loaded := rfl
@[simp] theorem State.withSteer_due (s : State) (x : SteerQueue) (t : Nat) : (s.withSteer x).due t = s.due t := rfl
@[simp] theorem State.withLink_par (s : State) (x : Link) (p : Config.Param) : (s.withLink x).par p = s.par p := rfl
@[simp] theorem State.withLink_ownSite (s : State) (x : Link) : (s.withLink x).ownSite = s.ownSite := rfl
@[simp] theorem State.withLink_running (s : State) (x : Link) : (s.withLink x).running = s.running := rfl
@[simp] theorem State.withLink_loaded (s : State) (x : Link) : (s.withLink x).loaded = s.loaded := rfl
@[simp] theorem State.withLink_due (s : State) (x : Link) (t : Nat) : (s.withLink x).due t = s.due t := rfl
@[simp] theorem State.withLoader_due (s : State) (x : Loader) (t : Nat) : (s.withLoader x).due t = s.due t := rfl
@[simp] theorem State.withPort_par (s : State) (x : Port) (p : Config.Param) : (s.withPort x).par p = s.par p := rfl
@[simp] theorem State.withPort_ownSite (s : State) (x : Port) : (s.withPort x).ownSite = s.ownSite := rfl
@[simp] theorem State.withPort_running (s : State) (x : Port) : (s.withPort x).running = s.running := rfl
@[simp] theorem State.withPort_loaded (s : State) (x : Port) : (s.withPort x).loaded = s.loaded := rfl
@[simp] theorem State.withPort_due (s : State) (x : Port) (t : Nat) : (s.withPort x).due t = s.due t := rfl
@[simp] theorem State.withFreeIndex_par (s : State) (x : Nat) (p : Config.Param) : (s.withFreeIndex x).par p = s.par p := rfl
@[simp] theorem State.withFreeIndex_ownSite (s : State) (x : Nat) : (s.withFreeIndex x).ownSite = s.ownSite := rfl
@[simp] theorem State.withFreeIndex_running (s : State) (x : Nat) : (s.withFreeIndex x).running = s.running := rfl
@[simp] theorem State.withFreeIndex_loaded (s : State) (x : Nat) : (s.withFreeIndex x).loaded = s.loaded := rfl
@[simp] theorem State.withFreeIndex_due (s : State) (x : Nat) (t : Nat) : (s.withFreeIndex x).due t = s.due t := rfl
@[simp] theorem State.withPending_par (s : State) (x : List Instr) (p : Config.Param) : (s.withPending x).par p = s.par p :=
  rfl
@[simp] theorem State.withPending_ownSite (s : State) (x : List Instr) : (s.withPending x).ownSite = s.ownSite := rfl
@[simp] theorem State.withPending_running (s : State) (x : List Instr) : (s.withPending x).running = s.running := rfl
@[simp] theorem State.withPending_loaded (s : State) (x : List Instr) : (s.withPending x).loaded = s.loaded := rfl
@[simp] theorem State.withPending_due (s : State) (x : List Instr) (t : Nat) : (s.withPending x).due t = s.due t := rfl

/-! ### The port under a counter and a flag -/

@[simp] theorem Port.bump_busy (c : Counter) (p : Port) : (p.bump c).busy = p.busy := rfl
@[simp] theorem Port.bump_frame (c : Counter) (p : Port) : (p.bump c).frame = p.frame := rfl
@[simp] theorem Port.bump_cursorTable (c : Counter) (p : Port) : (p.bump c).cursorTable = p.cursorTable := rfl
@[simp] theorem Port.bump_cursorIndex (c : Counter) (p : Port) : (p.bump c).cursorIndex = p.cursorIndex := rfl
@[simp] theorem Port.bump_holder (c : Counter) (p : Port) : (p.bump c).holder = p.holder := rfl
@[simp] theorem Port.bump_fetch (c : Counter) (p : Port) : (p.bump c).fetch = p.fetch := rfl
@[simp] theorem Port.bump_flags (c : Counter) (p : Port) : (p.bump c).flags = p.flags := rfl
@[simp] theorem Port.bump_hold (c : Counter) (p : Port) : (p.bump c).hold = p.hold := rfl
@[simp] theorem Port.bump_listenOnly (c : Counter) (p : Port) : (p.bump c).listenOnly = p.listenOnly := rfl
@[simp] theorem Port.bump_mntDo (c : Counter) (p : Port) : (p.bump c).mntDo = p.mntDo := rfl
@[simp] theorem Port.bumpIf_busy (b : Bool) (c : Counter) (p : Port) : (p.bumpIf b c).busy = p.busy := by
  cases b <;> rfl
@[simp] theorem Port.bumpIf_frame (b : Bool) (c : Counter) (p : Port) : (p.bumpIf b c).frame = p.frame := by
  cases b <;> rfl
@[simp] theorem Port.bumpIf_cursorTable (b : Bool) (c : Counter) (p : Port) : (p.bumpIf b c).cursorTable = p.cursorTable := by
  cases b <;> rfl
@[simp] theorem Port.bumpIf_cursorIndex (b : Bool) (c : Counter) (p : Port) : (p.bumpIf b c).cursorIndex = p.cursorIndex := by
  cases b <;> rfl
@[simp] theorem Port.bumpIf_holder (b : Bool) (c : Counter) (p : Port) : (p.bumpIf b c).holder = p.holder := by
  cases b <;> rfl
@[simp] theorem Port.bumpIf_fetch (b : Bool) (c : Counter) (p : Port) : (p.bumpIf b c).fetch = p.fetch := by
  cases b <;> rfl
@[simp] theorem Port.bumpIf_flags (b : Bool) (c : Counter) (p : Port) : (p.bumpIf b c).flags = p.flags := by
  cases b <;> rfl
@[simp] theorem Port.bumpIf_hold (b : Bool) (c : Counter) (p : Port) : (p.bumpIf b c).hold = p.hold := by
  cases b <;> rfl
@[simp] theorem Port.bumpIf_listenOnly (b : Bool) (c : Counter) (p : Port) : (p.bumpIf b c).listenOnly = p.listenOnly := by
  cases b <;> rfl
@[simp] theorem Port.bumpIf_mntDo (b : Bool) (c : Counter) (p : Port) : (p.bumpIf b c).mntDo = p.mntDo := by
  cases b <;> rfl
@[simp] theorem Port.raise_busy (n : FlagName) (p : Port) : (p.raise n).busy = p.busy := rfl
@[simp] theorem Port.raise_frame (n : FlagName) (p : Port) : (p.raise n).frame = p.frame := rfl
@[simp] theorem Port.raise_cursorTable (n : FlagName) (p : Port) : (p.raise n).cursorTable = p.cursorTable := rfl
@[simp] theorem Port.raise_cursorIndex (n : FlagName) (p : Port) : (p.raise n).cursorIndex = p.cursorIndex := rfl
@[simp] theorem Port.raise_holder (n : FlagName) (p : Port) : (p.raise n).holder = p.holder := rfl
@[simp] theorem Port.raise_fetch (n : FlagName) (p : Port) : (p.raise n).fetch = p.fetch := rfl
@[simp] theorem Port.raise_hold (n : FlagName) (p : Port) : (p.raise n).hold = p.hold := rfl
@[simp] theorem Port.raise_listenOnly (n : FlagName) (p : Port) : (p.raise n).listenOnly = p.listenOnly := rfl
@[simp] theorem Port.raise_mntDo (n : FlagName) (p : Port) : (p.raise n).mntDo = p.mntDo := rfl
@[simp] theorem Port.raiseIf_busy (b : Bool) (n : FlagName) (p : Port) : (p.raiseIf b n).busy = p.busy := by
  cases b <;> rfl
@[simp] theorem Port.raiseIf_frame (b : Bool) (n : FlagName) (p : Port) : (p.raiseIf b n).frame = p.frame := by
  cases b <;> rfl
@[simp] theorem Port.raiseIf_cursorTable (b : Bool) (n : FlagName) (p : Port) : (p.raiseIf b n).cursorTable = p.cursorTable := by
  cases b <;> rfl
@[simp] theorem Port.raiseIf_cursorIndex (b : Bool) (n : FlagName) (p : Port) : (p.raiseIf b n).cursorIndex = p.cursorIndex := by
  cases b <;> rfl
@[simp] theorem Port.raiseIf_holder (b : Bool) (n : FlagName) (p : Port) : (p.raiseIf b n).holder = p.holder := by
  cases b <;> rfl
@[simp] theorem Port.raiseIf_fetch (b : Bool) (n : FlagName) (p : Port) : (p.raiseIf b n).fetch = p.fetch := by
  cases b <;> rfl
@[simp] theorem Port.raiseIf_hold (b : Bool) (n : FlagName) (p : Port) : (p.raiseIf b n).hold = p.hold := by
  cases b <;> rfl
@[simp] theorem Port.raiseIf_listenOnly (b : Bool) (n : FlagName) (p : Port) : (p.raiseIf b n).listenOnly = p.listenOnly := by
  cases b <;> rfl
@[simp] theorem Port.raiseIf_mntDo (b : Bool) (n : FlagName) (p : Port) : (p.raiseIf b n).mntDo = p.mntDo := by
  cases b <;> rfl
@[simp] theorem Port.raise_counters (n : FlagName) (p : Port) : (p.raise n).counters = p.counters := rfl
@[simp] theorem Port.raiseIf_counters (b : Bool) (n : FlagName) (p : Port) : (p.raiseIf b n).counters = p.counters := by
  cases b <;> rfl

/-- A counter after an increase: one more, staying at 65,535; every other counter as it was (R192). -/
theorem Port.bump_counter (c d : Counter) (p : Port) :
    (p.bump c).counters[d.index] = if d.index = c.index then saturate p.counters[c.index] else p.counters[d.index] := by
  simp only [Port.bump, Fin.getElem_fin, Vector.getElem_set]
  split <;> split <;> simp_all [Fin.ext_iff, eq_comm]

end Sys2Proof.Machine
end

