-- ==== Sys2Proof/Laws/Frames.lean ====
section
/-! SUPPORT. Which blocks of the state each shared operation can change: for each operation, one lemma per block that it
leaves as it was, and one per field of the port that its counters and flags leave as they were. All are for `simp`. -/

namespace Sys2Proof.Machine

@[simp] theorem State.bump_resetHeld (c : Counter) (s : State) : (s.bump c).resetHeld = s.resetHeld := by
  simp [State.bump]
@[simp] theorem State.bump_now (c : Counter) (s : State) : (s.bump c).now = s.now := by
  simp [State.bump]
@[simp] theorem State.bump_intake (c : Counter) (s : State) : (s.bump c).intake = s.intake := by
  simp [State.bump]
@[simp] theorem State.bump_roster (c : Counter) (s : State) : (s.bump c).roster = s.roster := by
  simp [State.bump]
@[simp] theorem State.bump_strays (c : Counter) (s : State) : (s.bump c).strays = s.strays := by
  simp [State.bump]
@[simp] theorem State.bump_hearing (c : Counter) (s : State) : (s.bump c).hearing = s.hearing := by
  simp [State.bump]
@[simp] theorem State.bump_nego (c : Counter) (s : State) : (s.bump c).nego = s.nego := by
  simp [State.bump]
@[simp] theorem State.bump_steer (c : Counter) (s : State) : (s.bump c).steer = s.steer := by
  simp [State.bump]
@[simp] theorem State.bump_link (c : Counter) (s : State) : (s.bump c).link = s.link := by
  simp [State.bump]
@[simp] theorem State.bump_loader (c : Counter) (s : State) : (s.bump c).loader = s.loader := by
  simp [State.bump]
@[simp] theorem State.bump_freeIndex (c : Counter) (s : State) : (s.bump c).freeIndex = s.freeIndex := by
  simp [State.bump]
@[simp] theorem State.bump_pending (c : Counter) (s : State) : (s.bump c).pending = s.pending := by
  simp [State.bump]
@[simp] theorem State.bump_running (c : Counter) (s : State) : (s.bump c).running = s.running := by simp [State.running]
@[simp] theorem State.bump_loaded (c : Counter) (s : State) : (s.bump c).loaded = s.loaded := by simp [State.loaded]
@[simp] theorem State.bump_port_busy (c : Counter) (s : State) : (s.bump c).port.busy = s.port.busy := by
  simp [State.bump]
@[simp] theorem State.bump_port_frame (c : Counter) (s : State) : (s.bump c).port.frame = s.port.frame := by
  simp [State.bump]
@[simp] theorem State.bump_port_cursorTable (c : Counter) (s : State) : (s.bump c).port.cursorTable = s.port.cursorTable := by
  simp [State.bump]
@[simp] theorem State.bump_port_cursorIndex (c : Counter) (s : State) : (s.bump c).port.cursorIndex = s.port.cursorIndex := by
  simp [State.bump]
@[simp] theorem State.bump_port_holder (c : Counter) (s : State) : (s.bump c).port.holder = s.port.holder := by
  simp [State.bump]
@[simp] theorem State.bump_port_fetch (c : Counter) (s : State) : (s.bump c).port.fetch = s.port.fetch := by
  simp [State.bump]
@[simp] theorem State.bump_port_hold (c : Counter) (s : State) : (s.bump c).port.hold = s.port.hold := by
  simp [State.bump]
@[simp] theorem State.bump_port_listenOnly (c : Counter) (s : State) : (s.bump c).port.listenOnly = s.port.listenOnly := by
  simp [State.bump]
@[simp] theorem State.bump_port_mntDo (c : Counter) (s : State) : (s.bump c).port.mntDo = s.port.mntDo := by
  simp [State.bump]
@[simp] theorem State.bumpIf_resetHeld (b : Bool) (c : Counter) (s : State) : (s.bumpIf b c).resetHeld = s.resetHeld := by
  simp [State.bumpIf]
@[simp] theorem State.bumpIf_now (b : Bool) (c : Counter) (s : State) : (s.bumpIf b c).now = s.now := by
  simp [State.bumpIf]
@[simp] theorem State.bumpIf_intake (b : Bool) (c : Counter) (s : State) : (s.bumpIf b c).intake = s.intake := by
  simp [State.bumpIf]
@[simp] theorem State.bumpIf_roster (b : Bool) (c : Counter) (s : State) : (s.bumpIf b c).roster = s.roster := by
  simp [State.bumpIf]
@[simp] theorem State.bumpIf_strays (b : Bool) (c : Counter) (s : State) : (s.bumpIf b c).strays = s.strays := by
  simp [State.bumpIf]
@[simp] theorem State.bumpIf_hearing (b : Bool) (c : Counter) (s : State) : (s.bumpIf b c).hearing = s.hearing := by
  simp [State.bumpIf]
@[simp] theorem State.bumpIf_nego (b : Bool) (c : Counter) (s : State) : (s.bumpIf b c).nego = s.nego := by
  simp [State.bumpIf]
@[simp] theorem State.bumpIf_steer (b : Bool) (c : Counter) (s : State) : (s.bumpIf b c).steer = s.steer := by
  simp [State.bumpIf]
@[simp] theorem State.bumpIf_link (b : Bool) (c : Counter) (s : State) : (s.bumpIf b c).link = s.link := by
  simp [State.bumpIf]
@[simp] theorem State.bumpIf_loader (b : Bool) (c : Counter) (s : State) : (s.bumpIf b c).loader = s.loader := by
  simp [State.bumpIf]
@[simp] theorem State.bumpIf_freeIndex (b : Bool) (c : Counter) (s : State) : (s.bumpIf b c).freeIndex = s.freeIndex := by
  simp [State.bumpIf]
@[simp] theorem State.bumpIf_pending (b : Bool) (c : Counter) (s : State) : (s.bumpIf b c).pending = s.pending := by
  simp [State.bumpIf]
@[simp] theorem State.bumpIf_running (b : Bool) (c : Counter) (s : State) : (s.bumpIf b c).running = s.running := by simp [State.running]
@[simp] theorem State.bumpIf_loaded (b : Bool) (c : Counter) (s : State) : (s.bumpIf b c).loaded = s.loaded := by simp [State.loaded]
@[simp] theorem State.bumpIf_port_busy (b : Bool) (c : Counter) (s : State) : (s.bumpIf b c).port.busy = s.port.busy := by
  simp [State.bumpIf]
@[simp] theorem State.bumpIf_port_frame (b : Bool) (c : Counter) (s : State) : (s.bumpIf b c).port.frame = s.port.frame := by
  simp [State.bumpIf]
@[simp] theorem State.bumpIf_port_cursorTable (b : Bool) (c : Counter) (s : State) : (s.bumpIf b c).port.cursorTable = s.port.cursorTable := by
  simp [State.bumpIf]
@[simp] theorem State.bumpIf_port_cursorIndex (b : Bool) (c : Counter) (s : State) : (s.bumpIf b c).port.cursorIndex = s.port.cursorIndex := by
  simp [State.bumpIf]
@[simp] theorem State.bumpIf_port_holder (b : Bool) (c : Counter) (s : State) : (s.bumpIf b c).port.holder = s.port.holder := by
  simp [State.bumpIf]
@[simp] theorem State.bumpIf_port_fetch (b : Bool) (c : Counter) (s : State) : (s.bumpIf b c).port.fetch = s.port.fetch := by
  simp [State.bumpIf]
@[simp] theorem State.bumpIf_port_hold (b : Bool) (c : Counter) (s : State) : (s.bumpIf b c).port.hold = s.port.hold := by
  simp [State.bumpIf]
@[simp] theorem State.bumpIf_port_listenOnly (b : Bool) (c : Counter) (s : State) : (s.bumpIf b c).port.listenOnly = s.port.listenOnly := by
  simp [State.bumpIf]
@[simp] theorem State.bumpIf_port_mntDo (b : Bool) (c : Counter) (s : State) : (s.bumpIf b c).port.mntDo = s.port.mntDo := by
  simp [State.bumpIf]
@[simp] theorem State.raise_resetHeld (n : FlagName) (s : State) : (s.raise n).resetHeld = s.resetHeld := by
  simp [State.raise]
@[simp] theorem State.raise_now (n : FlagName) (s : State) : (s.raise n).now = s.now := by
  simp [State.raise]
@[simp] theorem State.raise_intake (n : FlagName) (s : State) : (s.raise n).intake = s.intake := by
  simp [State.raise]
@[simp] theorem State.raise_roster (n : FlagName) (s : State) : (s.raise n).roster = s.roster := by
  simp [State.raise]
@[simp] theorem State.raise_strays (n : FlagName) (s : State) : (s.raise n).strays = s.strays := by
  simp [State.raise]
@[simp] theorem State.raise_hearing (n : FlagName) (s : State) : (s.raise n).hearing = s.hearing := by
  simp [State.raise]
@[simp] theorem State.raise_nego (n : FlagName) (s : State) : (s.raise n).nego = s.nego := by
  simp [State.raise]
@[simp] theorem State.raise_steer (n : FlagName) (s : State) : (s.raise n).steer = s.steer := by
  simp [State.raise]
@[simp] theorem State.raise_link (n : FlagName) (s : State) : (s.raise n).link = s.link := by
  simp [State.raise]
@[simp] theorem State.raise_loader (n : FlagName) (s : State) : (s.raise n).loader = s.loader := by
  simp [State.raise]
@[simp] theorem State.raise_freeIndex (n : FlagName) (s : State) : (s.raise n).freeIndex = s.freeIndex := by
  simp [State.raise]
@[simp] theorem State.raise_pending (n : FlagName) (s : State) : (s.raise n).pending = s.pending := by
  simp [State.raise]
@[simp] theorem State.raise_running (n : FlagName) (s : State) : (s.raise n).running = s.running := by simp [State.running]
@[simp] theorem State.raise_loaded (n : FlagName) (s : State) : (s.raise n).loaded = s.loaded := by simp [State.loaded]
@[simp] theorem State.raise_port_busy (n : FlagName) (s : State) : (s.raise n).port.busy = s.port.busy := by
  simp [State.raise]
@[simp] theorem State.raise_port_frame (n : FlagName) (s : State) : (s.raise n).port.frame = s.port.frame := by
  simp [State.raise]
@[simp] theorem State.raise_port_cursorTable (n : FlagName) (s : State) : (s.raise n).port.cursorTable = s.port.cursorTable := by
  simp [State.raise]
@[simp] theorem State.raise_port_cursorIndex (n : FlagName) (s : State) : (s.raise n).port.cursorIndex = s.port.cursorIndex := by
  simp [State.raise]
@[simp] theorem State.raise_port_holder (n : FlagName) (s : State) : (s.raise n).port.holder = s.port.holder := by
  simp [State.raise]
@[simp] theorem State.raise_port_fetch (n : FlagName) (s : State) : (s.raise n).port.fetch = s.port.fetch := by
  simp [State.raise]
@[simp] theorem State.raise_port_hold (n : FlagName) (s : State) : (s.raise n).port.hold = s.port.hold := by
  simp [State.raise]
@[simp] theorem State.raise_port_listenOnly (n : FlagName) (s : State) : (s.raise n).port.listenOnly = s.port.listenOnly := by
  simp [State.raise]
@[simp] theorem State.raise_port_mntDo (n : FlagName) (s : State) : (s.raise n).port.mntDo = s.port.mntDo := by
  simp [State.raise]
@[simp] theorem State.raiseIf_resetHeld (b : Bool) (n : FlagName) (s : State) : (s.raiseIf b n).resetHeld = s.resetHeld := by
  simp [State.raiseIf]
@[simp] theorem State.raiseIf_now (b : Bool) (n : FlagName) (s : State) : (s.raiseIf b n).now = s.now := by
  simp [State.raiseIf]
@[simp] theorem State.raiseIf_intake (b : Bool) (n : FlagName) (s : State) : (s.raiseIf b n).intake = s.intake := by
  simp [State.raiseIf]
@[simp] theorem State.raiseIf_roster (b : Bool) (n : FlagName) (s : State) : (s.raiseIf b n).roster = s.roster := by
  simp [State.raiseIf]
@[simp] theorem State.raiseIf_strays (b : Bool) (n : FlagName) (s : State) : (s.raiseIf b n).strays = s.strays := by
  simp [State.raiseIf]
@[simp] theorem State.raiseIf_hearing (b : Bool) (n : FlagName) (s : State) : (s.raiseIf b n).hearing = s.hearing := by
  simp [State.raiseIf]
@[simp] theorem State.raiseIf_nego (b : Bool) (n : FlagName) (s : State) : (s.raiseIf b n).nego = s.nego := by
  simp [State.raiseIf]
@[simp] theorem State.raiseIf_steer (b : Bool) (n : FlagName) (s : State) : (s.raiseIf b n).steer = s.steer := by
  simp [State.raiseIf]
@[simp] theorem State.raiseIf_link (b : Bool) (n : FlagName) (s : State) : (s.raiseIf b n).link = s.link := by
  simp [State.raiseIf]
@[simp] theorem State.raiseIf_loader (b : Bool) (n : FlagName) (s : State) : (s.raiseIf b n).loader = s.loader := by
  simp [State.raiseIf]
@[simp] theorem State.raiseIf_freeIndex (b : Bool) (n : FlagName) (s : State) : (s.raiseIf b n).freeIndex = s.freeIndex := by
  simp [State.raiseIf]
@[simp] theorem State.raiseIf_pending (b : Bool) (n : FlagName) (s : State) : (s.raiseIf b n).pending = s.pending := by
  simp [State.raiseIf]
@[simp] theorem State.raiseIf_running (b : Bool) (n : FlagName) (s : State) : (s.raiseIf b n).running = s.running := by simp [State.running]
@[simp] theorem State.raiseIf_loaded (b : Bool) (n : FlagName) (s : State) : (s.raiseIf b n).loaded = s.loaded := by simp [State.loaded]
@[simp] theorem State.raiseIf_port_busy (b : Bool) (n : FlagName) (s : State) : (s.raiseIf b n).port.busy = s.port.busy := by
  simp [State.raiseIf]
@[simp] theorem State.raiseIf_port_frame (b : Bool) (n : FlagName) (s : State) : (s.raiseIf b n).port.frame = s.port.frame := by
  simp [State.raiseIf]
@[simp] theorem State.raiseIf_port_cursorTable (b : Bool) (n : FlagName) (s : State) : (s.raiseIf b n).port.cursorTable = s.port.cursorTable := by
  simp [State.raiseIf]
@[simp] theorem State.raiseIf_port_cursorIndex (b : Bool) (n : FlagName) (s : State) : (s.raiseIf b n).port.cursorIndex = s.port.cursorIndex := by
  simp [State.raiseIf]
@[simp] theorem State.raiseIf_port_holder (b : Bool) (n : FlagName) (s : State) : (s.raiseIf b n).port.holder = s.port.holder := by
  simp [State.raiseIf]
@[simp] theorem State.raiseIf_port_fetch (b : Bool) (n : FlagName) (s : State) : (s.raiseIf b n).port.fetch = s.port.fetch := by
  simp [State.raiseIf]
@[simp] theorem State.raiseIf_port_hold (b : Bool) (n : FlagName) (s : State) : (s.raiseIf b n).port.hold = s.port.hold := by
  simp [State.raiseIf]
@[simp] theorem State.raiseIf_port_listenOnly (b : Bool) (n : FlagName) (s : State) : (s.raiseIf b n).port.listenOnly = s.port.listenOnly := by
  simp [State.raiseIf]
@[simp] theorem State.raiseIf_port_mntDo (b : Bool) (n : FlagName) (s : State) : (s.raiseIf b n).port.mntDo = s.port.mntDo := by
  simp [State.raiseIf]
@[simp] theorem State.removeOrder_resetHeld (r : Radio) (s : State) : (s.removeOrder r).resetHeld = s.resetHeld := by
  simp [State.removeOrder]
@[simp] theorem State.removeOrder_now (r : Radio) (s : State) : (s.removeOrder r).now = s.now := by
  simp [State.removeOrder]
@[simp] theorem State.removeOrder_intake (r : Radio) (s : State) : (s.removeOrder r).intake = s.intake := by
  simp [State.removeOrder]
@[simp] theorem State.removeOrder_roster (r : Radio) (s : State) : (s.removeOrder r).roster = s.roster := by
  simp [State.removeOrder]
@[simp] theorem State.removeOrder_strays (r : Radio) (s : State) : (s.removeOrder r).strays = s.strays := by
  simp [State.removeOrder]
@[simp] theorem State.removeOrder_hearing (r : Radio) (s : State) : (s.removeOrder r).hearing = s.hearing := by
  simp [State.removeOrder]
@[simp] theorem State.removeOrder_nego (r : Radio) (s : State) : (s.removeOrder r).nego = s.nego := by
  simp [State.removeOrder]
@[simp] theorem State.removeOrder_link (r : Radio) (s : State) : (s.removeOrder r).link = s.link := by
  simp [State.removeOrder]
@[simp] theorem State.removeOrder_loader (r : Radio) (s : State) : (s.removeOrder r).loader = s.loader := by
  simp [State.removeOrder]
@[simp] theorem State.removeOrder_port (r : Radio) (s : State) : (s.removeOrder r).port = s.port := by
  simp [State.removeOrder]
@[simp] theorem State.removeOrder_freeIndex (r : Radio) (s : State) : (s.removeOrder r).freeIndex = s.freeIndex := by
  simp [State.removeOrder]
@[simp] theorem State.removeOrder_pending (r : Radio) (s : State) : (s.removeOrder r).pending = s.pending := by
  simp [State.removeOrder]
@[simp] theorem State.removeOrder_running (r : Radio) (s : State) : (s.removeOrder r).running = s.running := by simp [State.running]
@[simp] theorem State.removeOrder_loaded (r : Radio) (s : State) : (s.removeOrder r).loaded = s.loaded := by simp [State.loaded]
@[simp] theorem State.removeRefuse_resetHeld (r : Radio) (s : State) : (s.removeRefuse r).resetHeld = s.resetHeld := by
  simp [State.removeRefuse]
@[simp] theorem State.removeRefuse_now (r : Radio) (s : State) : (s.removeRefuse r).now = s.now := by
  simp [State.removeRefuse]
@[simp] theorem State.removeRefuse_intake (r : Radio) (s : State) : (s.removeRefuse r).intake = s.intake := by
  simp [State.removeRefuse]
@[simp] theorem State.removeRefuse_roster (r : Radio) (s : State) : (s.removeRefuse r).roster = s.roster := by
  simp [State.removeRefuse]
@[simp] theorem State.removeRefuse_strays (r : Radio) (s : State) : (s.removeRefuse r).strays = s.strays := by
  simp [State.removeRefuse]
@[simp] theorem State.removeRefuse_hearing (r : Radio) (s : State) : (s.removeRefuse r).hearing = s.hearing := by
  simp [State.removeRefuse]
@[simp] theorem State.removeRefuse_nego (r : Radio) (s : State) : (s.removeRefuse r).nego = s.nego := by
  simp [State.removeRefuse]
@[simp] theorem State.removeRefuse_link (r : Radio) (s : State) : (s.removeRefuse r).link = s.link := by
  simp [State.removeRefuse]
@[simp] theorem State.removeRefuse_loader (r : Radio) (s : State) : (s.removeRefuse r).loader = s.loader := by
  simp [State.removeRefuse]
@[simp] theorem State.removeRefuse_port (r : Radio) (s : State) : (s.removeRefuse r).port = s.port := by
  simp [State.removeRefuse]
@[simp] theorem State.removeRefuse_freeIndex (r : Radio) (s : State) : (s.removeRefuse r).freeIndex = s.freeIndex := by
  simp [State.removeRefuse]
@[simp] theorem State.removeRefuse_pending (r : Radio) (s : State) : (s.removeRefuse r).pending = s.pending := by
  simp [State.removeRefuse]
@[simp] theorem State.removeRefuse_running (r : Radio) (s : State) : (s.removeRefuse r).running = s.running := by simp [State.running]
@[simp] theorem State.removeRefuse_loaded (r : Radio) (s : State) : (s.removeRefuse r).loaded = s.loaded := by simp [State.loaded]
@[simp] theorem State.offerMove_resetHeld (r : Radio) (n : Fin 8) (s : State) : (s.offerMove r n).resetHeld = s.resetHeld := by
  simp [State.offerMove]
@[simp] theorem State.offerMove_now (r : Radio) (n : Fin 8) (s : State) : (s.offerMove r n).now = s.now := by
  simp [State.offerMove]
@[simp] theorem State.offerMove_intake (r : Radio) (n : Fin 8) (s : State) : (s.offerMove r n).intake = s.intake := by
  simp [State.offerMove]
@[simp] theorem State.offerMove_roster (r : Radio) (n : Fin 8) (s : State) : (s.offerMove r n).roster = s.roster := by
  simp [State.offerMove]
@[simp] theorem State.offerMove_strays (r : Radio) (n : Fin 8) (s : State) : (s.offerMove r n).strays = s.strays := by
  simp [State.offerMove]
@[simp] theorem State.offerMove_hearing (r : Radio) (n : Fin 8) (s : State) : (s.offerMove r n).hearing = s.hearing := by
  simp [State.offerMove]
@[simp] theorem State.offerMove_nego (r : Radio) (n : Fin 8) (s : State) : (s.offerMove r n).nego = s.nego := by
  simp [State.offerMove]
@[simp] theorem State.offerMove_link (r : Radio) (n : Fin 8) (s : State) : (s.offerMove r n).link = s.link := by
  simp [State.offerMove]
@[simp] theorem State.offerMove_loader (r : Radio) (n : Fin 8) (s : State) : (s.offerMove r n).loader = s.loader := by
  simp [State.offerMove]
@[simp] theorem State.offerMove_freeIndex (r : Radio) (n : Fin 8) (s : State) : (s.offerMove r n).freeIndex = s.freeIndex := by
  simp [State.offerMove]
@[simp] theorem State.offerMove_pending (r : Radio) (n : Fin 8) (s : State) : (s.offerMove r n).pending = s.pending := by
  simp [State.offerMove]
@[simp] theorem State.offerMove_running (r : Radio) (n : Fin 8) (s : State) : (s.offerMove r n).running = s.running := by simp [State.running]
@[simp] theorem State.offerMove_loaded (r : Radio) (n : Fin 8) (s : State) : (s.offerMove r n).loaded = s.loaded := by simp [State.loaded]
@[simp] theorem State.offerMove_port_busy (r : Radio) (n : Fin 8) (s : State) : (s.offerMove r n).port.busy = s.port.busy := by
  simp [State.offerMove]
@[simp] theorem State.offerMove_port_frame (r : Radio) (n : Fin 8) (s : State) : (s.offerMove r n).port.frame = s.port.frame := by
  simp [State.offerMove]
@[simp] theorem State.offerMove_port_cursorTable (r : Radio) (n : Fin 8) (s : State) : (s.offerMove r n).port.cursorTable = s.port.cursorTable := by
  simp [State.offerMove]
@[simp] theorem State.offerMove_port_cursorIndex (r : Radio) (n : Fin 8) (s : State) : (s.offerMove r n).port.cursorIndex = s.port.cursorIndex := by
  simp [State.offerMove]
@[simp] theorem State.offerMove_port_holder (r : Radio) (n : Fin 8) (s : State) : (s.offerMove r n).port.holder = s.port.holder := by
  simp [State.offerMove]
@[simp] theorem State.offerMove_port_fetch (r : Radio) (n : Fin 8) (s : State) : (s.offerMove r n).port.fetch = s.port.fetch := by
  simp [State.offerMove]
@[simp] theorem State.offerMove_port_hold (r : Radio) (n : Fin 8) (s : State) : (s.offerMove r n).port.hold = s.port.hold := by
  simp [State.offerMove]
@[simp] theorem State.offerMove_port_listenOnly (r : Radio) (n : Fin 8) (s : State) : (s.offerMove r n).port.listenOnly = s.port.listenOnly := by
  simp [State.offerMove]
@[simp] theorem State.offerMove_port_mntDo (r : Radio) (n : Fin 8) (s : State) : (s.offerMove r n).port.mntDo = s.port.mntDo := by
  simp [State.offerMove]
@[simp] theorem State.offerRefuse_resetHeld (r : Radio) (s : State) : (s.offerRefuse r).resetHeld = s.resetHeld := by
  simp [State.offerRefuse]
@[simp] theorem State.offerRefuse_now (r : Radio) (s : State) : (s.offerRefuse r).now = s.now := by
  simp [State.offerRefuse]
@[simp] theorem State.offerRefuse_intake (r : Radio) (s : State) : (s.offerRefuse r).intake = s.intake := by
  simp [State.offerRefuse]
@[simp] theorem State.offerRefuse_roster (r : Radio) (s : State) : (s.offerRefuse r).roster = s.roster := by
  simp [State.offerRefuse]
@[simp] theorem State.offerRefuse_strays (r : Radio) (s : State) : (s.offerRefuse r).strays = s.strays := by
  simp [State.offerRefuse]
@[simp] theorem State.offerRefuse_hearing (r : Radio) (s : State) : (s.offerRefuse r).hearing = s.hearing := by
  simp [State.offerRefuse]
@[simp] theorem State.offerRefuse_nego (r : Radio) (s : State) : (s.offerRefuse r).nego = s.nego := by
  simp [State.offerRefuse]
@[simp] theorem State.offerRefuse_link (r : Radio) (s : State) : (s.offerRefuse r).link = s.link := by
  simp [State.offerRefuse]
@[simp] theorem State.offerRefuse_loader (r : Radio) (s : State) : (s.offerRefuse r).loader = s.loader := by
  simp [State.offerRefuse]
@[simp] theorem State.offerRefuse_freeIndex (r : Radio) (s : State) : (s.offerRefuse r).freeIndex = s.freeIndex := by
  simp [State.offerRefuse]
@[simp] theorem State.offerRefuse_pending (r : Radio) (s : State) : (s.offerRefuse r).pending = s.pending := by
  simp [State.offerRefuse]
@[simp] theorem State.offerRefuse_running (r : Radio) (s : State) : (s.offerRefuse r).running = s.running := by simp [State.running]
@[simp] theorem State.offerRefuse_loaded (r : Radio) (s : State) : (s.offerRefuse r).loaded = s.loaded := by simp [State.loaded]
@[simp] theorem State.offerRefuse_port_busy (r : Radio) (s : State) : (s.offerRefuse r).port.busy = s.port.busy := by
  simp [State.offerRefuse]
@[simp] theorem State.offerRefuse_port_frame (r : Radio) (s : State) : (s.offerRefuse r).port.frame = s.port.frame := by
  simp [State.offerRefuse]
@[simp] theorem State.offerRefuse_port_cursorTable (r : Radio) (s : State) : (s.offerRefuse r).port.cursorTable = s.port.cursorTable := by
  simp [State.offerRefuse]
@[simp] theorem State.offerRefuse_port_cursorIndex (r : Radio) (s : State) : (s.offerRefuse r).port.cursorIndex = s.port.cursorIndex := by
  simp [State.offerRefuse]
@[simp] theorem State.offerRefuse_port_holder (r : Radio) (s : State) : (s.offerRefuse r).port.holder = s.port.holder := by
  simp [State.offerRefuse]
@[simp] theorem State.offerRefuse_port_fetch (r : Radio) (s : State) : (s.offerRefuse r).port.fetch = s.port.fetch := by
  simp [State.offerRefuse]
@[simp] theorem State.offerRefuse_port_hold (r : Radio) (s : State) : (s.offerRefuse r).port.hold = s.port.hold := by
  simp [State.offerRefuse]
@[simp] theorem State.offerRefuse_port_listenOnly (r : Radio) (s : State) : (s.offerRefuse r).port.listenOnly = s.port.listenOnly := by
  simp [State.offerRefuse]
@[simp] theorem State.offerRefuse_port_mntDo (r : Radio) (s : State) : (s.offerRefuse r).port.mntDo = s.port.mntDo := by
  simp [State.offerRefuse]
@[simp] theorem State.offer_resetHeld (d : Byte) (k : FrameKind) (b : List Byte) (s : State) : (s.offer d k b).resetHeld = s.resetHeld := by
  simp [State.offer]
@[simp] theorem State.offer_now (d : Byte) (k : FrameKind) (b : List Byte) (s : State) : (s.offer d k b).now = s.now := by
  simp [State.offer]
@[simp] theorem State.offer_intake (d : Byte) (k : FrameKind) (b : List Byte) (s : State) : (s.offer d k b).intake = s.intake := by
  simp [State.offer]
@[simp] theorem State.offer_roster (d : Byte) (k : FrameKind) (b : List Byte) (s : State) : (s.offer d k b).roster = s.roster := by
  simp [State.offer]
@[simp] theorem State.offer_strays (d : Byte) (k : FrameKind) (b : List Byte) (s : State) : (s.offer d k b).strays = s.strays := by
  simp [State.offer]
@[simp] theorem State.offer_hearing (d : Byte) (k : FrameKind) (b : List Byte) (s : State) : (s.offer d k b).hearing = s.hearing := by
  simp [State.offer]
@[simp] theorem State.offer_nego (d : Byte) (k : FrameKind) (b : List Byte) (s : State) : (s.offer d k b).nego = s.nego := by
  simp [State.offer]
@[simp] theorem State.offer_steer (d : Byte) (k : FrameKind) (b : List Byte) (s : State) : (s.offer d k b).steer = s.steer := by
  simp [State.offer]
@[simp] theorem State.offer_loader (d : Byte) (k : FrameKind) (b : List Byte) (s : State) : (s.offer d k b).loader = s.loader := by
  simp [State.offer]
@[simp] theorem State.offer_freeIndex (d : Byte) (k : FrameKind) (b : List Byte) (s : State) : (s.offer d k b).freeIndex = s.freeIndex := by
  simp [State.offer]
@[simp] theorem State.offer_pending (d : Byte) (k : FrameKind) (b : List Byte) (s : State) : (s.offer d k b).pending = s.pending := by
  simp [State.offer]
@[simp] theorem State.offer_running (d : Byte) (k : FrameKind) (b : List Byte) (s : State) : (s.offer d k b).running = s.running := by simp [State.running]
@[simp] theorem State.offer_loaded (d : Byte) (k : FrameKind) (b : List Byte) (s : State) : (s.offer d k b).loaded = s.loaded := by simp [State.loaded]
@[simp] theorem State.offer_port_busy (d : Byte) (k : FrameKind) (b : List Byte) (s : State) : (s.offer d k b).port.busy = s.port.busy := by
  simp [State.offer]
@[simp] theorem State.offer_port_frame (d : Byte) (k : FrameKind) (b : List Byte) (s : State) : (s.offer d k b).port.frame = s.port.frame := by
  simp [State.offer]
@[simp] theorem State.offer_port_cursorTable (d : Byte) (k : FrameKind) (b : List Byte) (s : State) : (s.offer d k b).port.cursorTable = s.port.cursorTable := by
  simp [State.offer]
@[simp] theorem State.offer_port_cursorIndex (d : Byte) (k : FrameKind) (b : List Byte) (s : State) : (s.offer d k b).port.cursorIndex = s.port.cursorIndex := by
  simp [State.offer]
@[simp] theorem State.offer_port_holder (d : Byte) (k : FrameKind) (b : List Byte) (s : State) : (s.offer d k b).port.holder = s.port.holder := by
  simp [State.offer]
@[simp] theorem State.offer_port_fetch (d : Byte) (k : FrameKind) (b : List Byte) (s : State) : (s.offer d k b).port.fetch = s.port.fetch := by
  simp [State.offer]
@[simp] theorem State.offer_port_hold (d : Byte) (k : FrameKind) (b : List Byte) (s : State) : (s.offer d k b).port.hold = s.port.hold := by
  simp [State.offer]
@[simp] theorem State.offer_port_listenOnly (d : Byte) (k : FrameKind) (b : List Byte) (s : State) : (s.offer d k b).port.listenOnly = s.port.listenOnly := by
  simp [State.offer]
@[simp] theorem State.offer_port_mntDo (d : Byte) (k : FrameKind) (b : List Byte) (s : State) : (s.offer d k b).port.mntDo = s.port.mntDo := by
  simp [State.offer]
@[simp] theorem State.updateEntry_resetHeld (i : Fin 64) (f : RosterEntry → RosterEntry) (s : State) : (s.updateEntry i f).resetHeld = s.resetHeld := by
  simp [State.updateEntry]
@[simp] theorem State.updateEntry_now (i : Fin 64) (f : RosterEntry → RosterEntry) (s : State) : (s.updateEntry i f).now = s.now := by
  simp [State.updateEntry]
@[simp] theorem State.updateEntry_intake (i : Fin 64) (f : RosterEntry → RosterEntry) (s : State) : (s.updateEntry i f).intake = s.intake := by
  simp [State.updateEntry]
@[simp] theorem State.updateEntry_strays (i : Fin 64) (f : RosterEntry → RosterEntry) (s : State) : (s.updateEntry i f).strays = s.strays := by
  simp [State.updateEntry]
@[simp] theorem State.updateEntry_hearing (i : Fin 64) (f : RosterEntry → RosterEntry) (s : State) : (s.updateEntry i f).hearing = s.hearing := by
  simp [State.updateEntry]
@[simp] theorem State.updateEntry_nego (i : Fin 64) (f : RosterEntry → RosterEntry) (s : State) : (s.updateEntry i f).nego = s.nego := by
  simp [State.updateEntry]
@[simp] theorem State.updateEntry_steer (i : Fin 64) (f : RosterEntry → RosterEntry) (s : State) : (s.updateEntry i f).steer = s.steer := by
  simp [State.updateEntry]
@[simp] theorem State.updateEntry_link (i : Fin 64) (f : RosterEntry → RosterEntry) (s : State) : (s.updateEntry i f).link = s.link := by
  simp [State.updateEntry]
@[simp] theorem State.updateEntry_loader (i : Fin 64) (f : RosterEntry → RosterEntry) (s : State) : (s.updateEntry i f).loader = s.loader := by
  simp [State.updateEntry]
@[simp] theorem State.updateEntry_port (i : Fin 64) (f : RosterEntry → RosterEntry) (s : State) : (s.updateEntry i f).port = s.port := by
  simp [State.updateEntry]
@[simp] theorem State.updateEntry_freeIndex (i : Fin 64) (f : RosterEntry → RosterEntry) (s : State) : (s.updateEntry i f).freeIndex = s.freeIndex := by
  simp [State.updateEntry]
@[simp] theorem State.updateEntry_pending (i : Fin 64) (f : RosterEntry → RosterEntry) (s : State) : (s.updateEntry i f).pending = s.pending := by
  simp [State.updateEntry]
@[simp] theorem State.updateEntry_running (i : Fin 64) (f : RosterEntry → RosterEntry) (s : State) : (s.updateEntry i f).running = s.running := by simp [State.running]
@[simp] theorem State.updateEntry_loaded (i : Fin 64) (f : RosterEntry → RosterEntry) (s : State) : (s.updateEntry i f).loaded = s.loaded := by simp [State.loaded]
@[simp] theorem State.evalAt_resetHeld (i : Fin 64) (s : State) : (s.evalAt i).resetHeld = s.resetHeld := by
  simp [State.evalAt]
@[simp] theorem State.evalAt_now (i : Fin 64) (s : State) : (s.evalAt i).now = s.now := by
  simp [State.evalAt]
@[simp] theorem State.evalAt_intake (i : Fin 64) (s : State) : (s.evalAt i).intake = s.intake := by
  simp [State.evalAt]
@[simp] theorem State.evalAt_strays (i : Fin 64) (s : State) : (s.evalAt i).strays = s.strays := by
  simp [State.evalAt]
@[simp] theorem State.evalAt_hearing (i : Fin 64) (s : State) : (s.evalAt i).hearing = s.hearing := by
  simp [State.evalAt]
@[simp] theorem State.evalAt_nego (i : Fin 64) (s : State) : (s.evalAt i).nego = s.nego := by
  simp [State.evalAt]
@[simp] theorem State.evalAt_steer (i : Fin 64) (s : State) : (s.evalAt i).steer = s.steer := by
  simp [State.evalAt]
@[simp] theorem State.evalAt_link (i : Fin 64) (s : State) : (s.evalAt i).link = s.link := by
  simp [State.evalAt]
@[simp] theorem State.evalAt_loader (i : Fin 64) (s : State) : (s.evalAt i).loader = s.loader := by
  simp [State.evalAt]
@[simp] theorem State.evalAt_port (i : Fin 64) (s : State) : (s.evalAt i).port = s.port := by
  simp [State.evalAt]
@[simp] theorem State.evalAt_freeIndex (i : Fin 64) (s : State) : (s.evalAt i).freeIndex = s.freeIndex := by
  simp [State.evalAt]
@[simp] theorem State.evalAt_pending (i : Fin 64) (s : State) : (s.evalAt i).pending = s.pending := by
  simp [State.evalAt]
@[simp] theorem State.evalAt_running (i : Fin 64) (s : State) : (s.evalAt i).running = s.running := by simp [State.running]
@[simp] theorem State.evalAt_loaded (i : Fin 64) (s : State) : (s.evalAt i).loaded = s.loaded := by simp [State.loaded]
@[simp] theorem State.evalRadios_resetHeld (p : Radio → Bool) (s : State) : (s.evalRadios p).resetHeld = s.resetHeld := by
  simp [State.evalRadios]
@[simp] theorem State.evalRadios_now (p : Radio → Bool) (s : State) : (s.evalRadios p).now = s.now := by
  simp [State.evalRadios]
@[simp] theorem State.evalRadios_intake (p : Radio → Bool) (s : State) : (s.evalRadios p).intake = s.intake := by
  simp [State.evalRadios]
@[simp] theorem State.evalRadios_strays (p : Radio → Bool) (s : State) : (s.evalRadios p).strays = s.strays := by
  simp [State.evalRadios]
@[simp] theorem State.evalRadios_hearing (p : Radio → Bool) (s : State) : (s.evalRadios p).hearing = s.hearing := by
  simp [State.evalRadios]
@[simp] theorem State.evalRadios_nego (p : Radio → Bool) (s : State) : (s.evalRadios p).nego = s.nego := by
  simp [State.evalRadios]
@[simp] theorem State.evalRadios_steer (p : Radio → Bool) (s : State) : (s.evalRadios p).steer = s.steer := by
  simp [State.evalRadios]
@[simp] theorem State.evalRadios_link (p : Radio → Bool) (s : State) : (s.evalRadios p).link = s.link := by
  simp [State.evalRadios]
@[simp] theorem State.evalRadios_loader (p : Radio → Bool) (s : State) : (s.evalRadios p).loader = s.loader := by
  simp [State.evalRadios]
@[simp] theorem State.evalRadios_port (p : Radio → Bool) (s : State) : (s.evalRadios p).port = s.port := by
  simp [State.evalRadios]
@[simp] theorem State.evalRadios_freeIndex (p : Radio → Bool) (s : State) : (s.evalRadios p).freeIndex = s.freeIndex := by
  simp [State.evalRadios]
@[simp] theorem State.evalRadios_pending (p : Radio → Bool) (s : State) : (s.evalRadios p).pending = s.pending := by
  simp [State.evalRadios]
@[simp] theorem State.evalRadios_running (p : Radio → Bool) (s : State) : (s.evalRadios p).running = s.running := by simp [State.running]
@[simp] theorem State.evalRadios_loaded (p : Radio → Bool) (s : State) : (s.evalRadios p).loaded = s.loaded := by simp [State.loaded]
@[simp] theorem State.evalAll_resetHeld (s : State) : (s.evalAll).resetHeld = s.resetHeld := by
  simp [State.evalAll]
@[simp] theorem State.evalAll_now (s : State) : (s.evalAll).now = s.now := by
  simp [State.evalAll]
@[simp] theorem State.evalAll_intake (s : State) : (s.evalAll).intake = s.intake := by
  simp [State.evalAll]
@[simp] theorem State.evalAll_strays (s : State) : (s.evalAll).strays = s.strays := by
  simp [State.evalAll]
@[simp] theorem State.evalAll_hearing (s : State) : (s.evalAll).hearing = s.hearing := by
  simp [State.evalAll]
@[simp] theorem State.evalAll_nego (s : State) : (s.evalAll).nego = s.nego := by
  simp [State.evalAll]
@[simp] theorem State.evalAll_steer (s : State) : (s.evalAll).steer = s.steer := by
  simp [State.evalAll]
@[simp] theorem State.evalAll_link (s : State) : (s.evalAll).link = s.link := by
  simp [State.evalAll]
@[simp] theorem State.evalAll_loader (s : State) : (s.evalAll).loader = s.loader := by
  simp [State.evalAll]
@[simp] theorem State.evalAll_port (s : State) : (s.evalAll).port = s.port := by
  simp [State.evalAll]
@[simp] theorem State.evalAll_freeIndex (s : State) : (s.evalAll).freeIndex = s.freeIndex := by
  simp [State.evalAll]
@[simp] theorem State.evalAll_pending (s : State) : (s.evalAll).pending = s.pending := by
  simp [State.evalAll]
@[simp] theorem State.evalAll_running (s : State) : (s.evalAll).running = s.running := by simp [State.running]
@[simp] theorem State.evalAll_loaded (s : State) : (s.evalAll).loaded = s.loaded := by simp [State.loaded]
@[simp] theorem State.observeStray_resetHeld (o : Observation) (s : State) : (s.observeStray o).resetHeld = s.resetHeld := by
  simp [State.observeStray]
@[simp] theorem State.observeStray_now (o : Observation) (s : State) : (s.observeStray o).now = s.now := by
  simp [State.observeStray]
@[simp] theorem State.observeStray_intake (o : Observation) (s : State) : (s.observeStray o).intake = s.intake := by
  simp [State.observeStray]
@[simp] theorem State.observeStray_roster (o : Observation) (s : State) : (s.observeStray o).roster = s.roster := by
  simp [State.observeStray]
@[simp] theorem State.observeStray_hearing (o : Observation) (s : State) : (s.observeStray o).hearing = s.hearing := by
  simp [State.observeStray]
@[simp] theorem State.observeStray_nego (o : Observation) (s : State) : (s.observeStray o).nego = s.nego := by
  simp [State.observeStray]
@[simp] theorem State.observeStray_steer (o : Observation) (s : State) : (s.observeStray o).steer = s.steer := by
  simp [State.observeStray]
@[simp] theorem State.observeStray_link (o : Observation) (s : State) : (s.observeStray o).link = s.link := by
  simp [State.observeStray]
@[simp] theorem State.observeStray_loader (o : Observation) (s : State) : (s.observeStray o).loader = s.loader := by
  simp [State.observeStray]
@[simp] theorem State.observeStray_port (o : Observation) (s : State) : (s.observeStray o).port = s.port := by
  simp [State.observeStray]
@[simp] theorem State.observeStray_freeIndex (o : Observation) (s : State) : (s.observeStray o).freeIndex = s.freeIndex := by
  simp [State.observeStray]
@[simp] theorem State.observeStray_pending (o : Observation) (s : State) : (s.observeStray o).pending = s.pending := by
  simp [State.observeStray]
@[simp] theorem State.observeStray_running (o : Observation) (s : State) : (s.observeStray o).running = s.running := by simp [State.running]
@[simp] theorem State.observeStray_loaded (o : Observation) (s : State) : (s.observeStray o).loaded = s.loaded := by simp [State.loaded]
@[simp] theorem State.composeHeard_resetHeld (l : List (Fin 32)) (s : State) : (s.composeHeard l).resetHeld = s.resetHeld := by
  simp only [State.composeHeard]; (repeat' split) <;> simp
@[simp] theorem State.composeHeard_now (l : List (Fin 32)) (s : State) : (s.composeHeard l).now = s.now := by
  simp only [State.composeHeard]; (repeat' split) <;> simp
@[simp] theorem State.composeHeard_intake (l : List (Fin 32)) (s : State) : (s.composeHeard l).intake = s.intake := by
  simp only [State.composeHeard]; (repeat' split) <;> simp
@[simp] theorem State.composeHeard_roster (l : List (Fin 32)) (s : State) : (s.composeHeard l).roster = s.roster := by
  simp only [State.composeHeard]; (repeat' split) <;> simp
@[simp] theorem State.composeHeard_hearing (l : List (Fin 32)) (s : State) : (s.composeHeard l).hearing = s.hearing := by
  simp only [State.composeHeard]; (repeat' split) <;> simp
@[simp] theorem State.composeHeard_nego (l : List (Fin 32)) (s : State) : (s.composeHeard l).nego = s.nego := by
  simp only [State.composeHeard]; (repeat' split) <;> simp
@[simp] theorem State.composeHeard_steer (l : List (Fin 32)) (s : State) : (s.composeHeard l).steer = s.steer := by
  simp only [State.composeHeard]; (repeat' split) <;> simp
@[simp] theorem State.composeHeard_loader (l : List (Fin 32)) (s : State) : (s.composeHeard l).loader = s.loader := by
  simp only [State.composeHeard]; (repeat' split) <;> simp
@[simp] theorem State.composeHeard_freeIndex (l : List (Fin 32)) (s : State) : (s.composeHeard l).freeIndex = s.freeIndex := by
  simp only [State.composeHeard]; (repeat' split) <;> simp
@[simp] theorem State.composeHeard_pending (l : List (Fin 32)) (s : State) : (s.composeHeard l).pending = s.pending := by
  simp only [State.composeHeard]; (repeat' split) <;> simp
@[simp] theorem State.composeHeard_running (l : List (Fin 32)) (s : State) : (s.composeHeard l).running = s.running := by simp [State.running]
@[simp] theorem State.composeHeard_loaded (l : List (Fin 32)) (s : State) : (s.composeHeard l).loaded = s.loaded := by simp [State.loaded]
@[simp] theorem State.composeHeard_port_busy (l : List (Fin 32)) (s : State) : (s.composeHeard l).port.busy = s.port.busy := by
  simp only [State.composeHeard]; (repeat' split) <;> simp
@[simp] theorem State.composeHeard_port_frame (l : List (Fin 32)) (s : State) : (s.composeHeard l).port.frame = s.port.frame := by
  simp only [State.composeHeard]; (repeat' split) <;> simp
@[simp] theorem State.composeHeard_port_cursorTable (l : List (Fin 32)) (s : State) : (s.composeHeard l).port.cursorTable = s.port.cursorTable := by
  simp only [State.composeHeard]; (repeat' split) <;> simp
@[simp] theorem State.composeHeard_port_cursorIndex (l : List (Fin 32)) (s : State) : (s.composeHeard l).port.cursorIndex = s.port.cursorIndex := by
  simp only [State.composeHeard]; (repeat' split) <;> simp
@[simp] theorem State.composeHeard_port_holder (l : List (Fin 32)) (s : State) : (s.composeHeard l).port.holder = s.port.holder := by
  simp only [State.composeHeard]; (repeat' split) <;> simp
@[simp] theorem State.composeHeard_port_fetch (l : List (Fin 32)) (s : State) : (s.composeHeard l).port.fetch = s.port.fetch := by
  simp only [State.composeHeard]; (repeat' split) <;> simp
@[simp] theorem State.composeHeard_port_hold (l : List (Fin 32)) (s : State) : (s.composeHeard l).port.hold = s.port.hold := by
  simp only [State.composeHeard]; (repeat' split) <;> simp
@[simp] theorem State.composeHeard_port_listenOnly (l : List (Fin 32)) (s : State) : (s.composeHeard l).port.listenOnly = s.port.listenOnly := by
  simp only [State.composeHeard]; (repeat' split) <;> simp
@[simp] theorem State.composeHeard_port_mntDo (l : List (Fin 32)) (s : State) : (s.composeHeard l).port.mntDo = s.port.mntDo := by
  simp only [State.composeHeard]; (repeat' split) <;> simp
@[simp] theorem State.composeNotice_resetHeld (s : State) : (s.composeNotice).resetHeld = s.resetHeld := by
  simp only [State.composeNotice]; (repeat' split) <;> simp
@[simp] theorem State.composeNotice_now (s : State) : (s.composeNotice).now = s.now := by
  simp only [State.composeNotice]; (repeat' split) <;> simp
@[simp] theorem State.composeNotice_intake (s : State) : (s.composeNotice).intake = s.intake := by
  simp only [State.composeNotice]; (repeat' split) <;> simp
@[simp] theorem State.composeNotice_roster (s : State) : (s.composeNotice).roster = s.roster := by
  simp only [State.composeNotice]; (repeat' split) <;> simp
@[simp] theorem State.composeNotice_hearing (s : State) : (s.composeNotice).hearing = s.hearing := by
  simp only [State.composeNotice]; (repeat' split) <;> simp
@[simp] theorem State.composeNotice_nego (s : State) : (s.composeNotice).nego = s.nego := by
  simp only [State.composeNotice]; (repeat' split) <;> simp
@[simp] theorem State.composeNotice_steer (s : State) : (s.composeNotice).steer = s.steer := by
  simp only [State.composeNotice]; (repeat' split) <;> simp
@[simp] theorem State.composeNotice_loader (s : State) : (s.composeNotice).loader = s.loader := by
  simp only [State.composeNotice]; (repeat' split) <;> simp
@[simp] theorem State.composeNotice_freeIndex (s : State) : (s.composeNotice).freeIndex = s.freeIndex := by
  simp only [State.composeNotice]; (repeat' split) <;> simp
@[simp] theorem State.composeNotice_pending (s : State) : (s.composeNotice).pending = s.pending := by
  simp only [State.composeNotice]; (repeat' split) <;> simp
@[simp] theorem State.composeNotice_running (s : State) : (s.composeNotice).running = s.running := by simp [State.running]
@[simp] theorem State.composeNotice_loaded (s : State) : (s.composeNotice).loaded = s.loaded := by simp [State.loaded]
@[simp] theorem State.composeNotice_port_busy (s : State) : (s.composeNotice).port.busy = s.port.busy := by
  simp only [State.composeNotice]; (repeat' split) <;> simp
@[simp] theorem State.composeNotice_port_frame (s : State) : (s.composeNotice).port.frame = s.port.frame := by
  simp only [State.composeNotice]; (repeat' split) <;> simp
@[simp] theorem State.composeNotice_port_cursorTable (s : State) : (s.composeNotice).port.cursorTable = s.port.cursorTable := by
  simp only [State.composeNotice]; (repeat' split) <;> simp
@[simp] theorem State.composeNotice_port_cursorIndex (s : State) : (s.composeNotice).port.cursorIndex = s.port.cursorIndex := by
  simp only [State.composeNotice]; (repeat' split) <;> simp
@[simp] theorem State.composeNotice_port_holder (s : State) : (s.composeNotice).port.holder = s.port.holder := by
  simp only [State.composeNotice]; (repeat' split) <;> simp
@[simp] theorem State.composeNotice_port_fetch (s : State) : (s.composeNotice).port.fetch = s.port.fetch := by
  simp only [State.composeNotice]; (repeat' split) <;> simp
@[simp] theorem State.composeNotice_port_hold (s : State) : (s.composeNotice).port.hold = s.port.hold := by
  simp only [State.composeNotice]; (repeat' split) <;> simp
@[simp] theorem State.composeNotice_port_listenOnly (s : State) : (s.composeNotice).port.listenOnly = s.port.listenOnly := by
  simp only [State.composeNotice]; (repeat' split) <;> simp
@[simp] theorem State.composeNotice_port_mntDo (s : State) : (s.composeNotice).port.mntDo = s.port.mntDo := by
  simp only [State.composeNotice]; (repeat' split) <;> simp
@[simp] theorem State.createEntry_resetHeld (i : Fin 64) (e : RosterEntry) (s : State) : (s.createEntry i e).resetHeld = s.resetHeld := by
  simp [State.createEntry]
@[simp] theorem State.createEntry_now (i : Fin 64) (e : RosterEntry) (s : State) : (s.createEntry i e).now = s.now := by
  simp [State.createEntry]
@[simp] theorem State.createEntry_intake (i : Fin 64) (e : RosterEntry) (s : State) : (s.createEntry i e).intake = s.intake := by
  simp [State.createEntry]
@[simp] theorem State.createEntry_hearing (i : Fin 64) (e : RosterEntry) (s : State) : (s.createEntry i e).hearing = s.hearing := by
  simp [State.createEntry]
@[simp] theorem State.createEntry_nego (i : Fin 64) (e : RosterEntry) (s : State) : (s.createEntry i e).nego = s.nego := by
  simp [State.createEntry]
@[simp] theorem State.createEntry_link (i : Fin 64) (e : RosterEntry) (s : State) : (s.createEntry i e).link = s.link := by
  simp [State.createEntry]
@[simp] theorem State.createEntry_loader (i : Fin 64) (e : RosterEntry) (s : State) : (s.createEntry i e).loader = s.loader := by
  simp [State.createEntry]
@[simp] theorem State.createEntry_port (i : Fin 64) (e : RosterEntry) (s : State) : (s.createEntry i e).port = s.port := by
  simp [State.createEntry]
@[simp] theorem State.createEntry_freeIndex (i : Fin 64) (e : RosterEntry) (s : State) : (s.createEntry i e).freeIndex = s.freeIndex := by
  simp [State.createEntry]
@[simp] theorem State.createEntry_pending (i : Fin 64) (e : RosterEntry) (s : State) : (s.createEntry i e).pending = s.pending := by
  simp [State.createEntry]
@[simp] theorem State.createEntry_running (i : Fin 64) (e : RosterEntry) (s : State) : (s.createEntry i e).running = s.running := by simp [State.running]
@[simp] theorem State.createEntry_loaded (i : Fin 64) (e : RosterEntry) (s : State) : (s.createEntry i e).loaded = s.loaded := by simp [State.loaded]
@[simp] theorem State.dropDeparture_resetHeld (r : Radio) (s : State) : (s.dropDeparture r).resetHeld = s.resetHeld := by
  simp [State.dropDeparture]
@[simp] theorem State.dropDeparture_now (r : Radio) (s : State) : (s.dropDeparture r).now = s.now := by
  simp [State.dropDeparture]
@[simp] theorem State.dropDeparture_intake (r : Radio) (s : State) : (s.dropDeparture r).intake = s.intake := by
  simp [State.dropDeparture]
@[simp] theorem State.dropDeparture_roster (r : Radio) (s : State) : (s.dropDeparture r).roster = s.roster := by
  simp [State.dropDeparture]
@[simp] theorem State.dropDeparture_strays (r : Radio) (s : State) : (s.dropDeparture r).strays = s.strays := by
  simp [State.dropDeparture]
@[simp] theorem State.dropDeparture_hearing (r : Radio) (s : State) : (s.dropDeparture r).hearing = s.hearing := by
  simp [State.dropDeparture]
@[simp] theorem State.dropDeparture_steer (r : Radio) (s : State) : (s.dropDeparture r).steer = s.steer := by
  simp [State.dropDeparture]
@[simp] theorem State.dropDeparture_link (r : Radio) (s : State) : (s.dropDeparture r).link = s.link := by
  simp [State.dropDeparture]
@[simp] theorem State.dropDeparture_loader (r : Radio) (s : State) : (s.dropDeparture r).loader = s.loader := by
  simp [State.dropDeparture]
@[simp] theorem State.dropDeparture_port (r : Radio) (s : State) : (s.dropDeparture r).port = s.port := by
  simp [State.dropDeparture]
@[simp] theorem State.dropDeparture_freeIndex (r : Radio) (s : State) : (s.dropDeparture r).freeIndex = s.freeIndex := by
  simp [State.dropDeparture]
@[simp] theorem State.dropDeparture_pending (r : Radio) (s : State) : (s.dropDeparture r).pending = s.pending := by
  simp [State.dropDeparture]
@[simp] theorem State.dropDeparture_running (r : Radio) (s : State) : (s.dropDeparture r).running = s.running := by simp [State.running]
@[simp] theorem State.dropDeparture_loaded (r : Radio) (s : State) : (s.dropDeparture r).loaded = s.loaded := by simp [State.loaded]
@[simp] theorem State.removeEntry_resetHeld (i : Fin 64) (s : State) : (s.removeEntry i).resetHeld = s.resetHeld := by
  simp only [State.removeEntry]; (repeat' split) <;> simp
@[simp] theorem State.removeEntry_now (i : Fin 64) (s : State) : (s.removeEntry i).now = s.now := by
  simp only [State.removeEntry]; (repeat' split) <;> simp
@[simp] theorem State.removeEntry_intake (i : Fin 64) (s : State) : (s.removeEntry i).intake = s.intake := by
  simp only [State.removeEntry]; (repeat' split) <;> simp
@[simp] theorem State.removeEntry_strays (i : Fin 64) (s : State) : (s.removeEntry i).strays = s.strays := by
  simp only [State.removeEntry]; (repeat' split) <;> simp
@[simp] theorem State.removeEntry_link (i : Fin 64) (s : State) : (s.removeEntry i).link = s.link := by
  simp only [State.removeEntry]; (repeat' split) <;> simp
@[simp] theorem State.removeEntry_loader (i : Fin 64) (s : State) : (s.removeEntry i).loader = s.loader := by
  simp only [State.removeEntry]; (repeat' split) <;> simp
@[simp] theorem State.removeEntry_port (i : Fin 64) (s : State) : (s.removeEntry i).port = s.port := by
  simp only [State.removeEntry]; (repeat' split) <;> simp
@[simp] theorem State.removeEntry_freeIndex (i : Fin 64) (s : State) : (s.removeEntry i).freeIndex = s.freeIndex := by
  simp only [State.removeEntry]; (repeat' split) <;> simp
@[simp] theorem State.removeEntry_pending (i : Fin 64) (s : State) : (s.removeEntry i).pending = s.pending := by
  simp only [State.removeEntry]; (repeat' split) <;> simp
@[simp] theorem State.removeEntry_running (i : Fin 64) (s : State) : (s.removeEntry i).running = s.running := by simp [State.running]
@[simp] theorem State.removeEntry_loaded (i : Fin 64) (s : State) : (s.removeEntry i).loaded = s.loaded := by simp [State.loaded]
@[simp] theorem State.record_resetHeld (r : Radio) (t : Byte) (o : Departed) (s : State) : (s.record r t o).resetHeld = s.resetHeld := by
  simp [State.record]
@[simp] theorem State.record_now (r : Radio) (t : Byte) (o : Departed) (s : State) : (s.record r t o).now = s.now := by
  simp [State.record]
@[simp] theorem State.record_intake (r : Radio) (t : Byte) (o : Departed) (s : State) : (s.record r t o).intake = s.intake := by
  simp [State.record]
@[simp] theorem State.record_roster (r : Radio) (t : Byte) (o : Departed) (s : State) : (s.record r t o).roster = s.roster := by
  simp [State.record]
@[simp] theorem State.record_strays (r : Radio) (t : Byte) (o : Departed) (s : State) : (s.record r t o).strays = s.strays := by
  simp [State.record]
@[simp] theorem State.record_hearing (r : Radio) (t : Byte) (o : Departed) (s : State) : (s.record r t o).hearing = s.hearing := by
  simp [State.record]
@[simp] theorem State.record_steer (r : Radio) (t : Byte) (o : Departed) (s : State) : (s.record r t o).steer = s.steer := by
  simp [State.record]
@[simp] theorem State.record_link (r : Radio) (t : Byte) (o : Departed) (s : State) : (s.record r t o).link = s.link := by
  simp [State.record]
@[simp] theorem State.record_loader (r : Radio) (t : Byte) (o : Departed) (s : State) : (s.record r t o).loader = s.loader := by
  simp [State.record]
@[simp] theorem State.record_port (r : Radio) (t : Byte) (o : Departed) (s : State) : (s.record r t o).port = s.port := by
  simp [State.record]
@[simp] theorem State.record_freeIndex (r : Radio) (t : Byte) (o : Departed) (s : State) : (s.record r t o).freeIndex = s.freeIndex := by
  simp [State.record]
@[simp] theorem State.record_pending (r : Radio) (t : Byte) (o : Departed) (s : State) : (s.record r t o).pending = s.pending := by
  simp [State.record]
@[simp] theorem State.record_running (r : Radio) (t : Byte) (o : Departed) (s : State) : (s.record r t o).running = s.running := by simp [State.running]
@[simp] theorem State.record_loaded (r : Radio) (t : Byte) (o : Departed) (s : State) : (s.record r t o).loaded = s.loaded := by simp [State.loaded]
@[simp] theorem State.announce_resetHeld (e : RosterEntry) (s : State) : (s.announce e).resetHeld = s.resetHeld := by
  simp [State.announce]
@[simp] theorem State.announce_now (e : RosterEntry) (s : State) : (s.announce e).now = s.now := by
  simp [State.announce]
@[simp] theorem State.announce_intake (e : RosterEntry) (s : State) : (s.announce e).intake = s.intake := by
  simp [State.announce]
@[simp] theorem State.announce_roster (e : RosterEntry) (s : State) : (s.announce e).roster = s.roster := by
  simp [State.announce]
@[simp] theorem State.announce_strays (e : RosterEntry) (s : State) : (s.announce e).strays = s.strays := by
  simp [State.announce]
@[simp] theorem State.announce_hearing (e : RosterEntry) (s : State) : (s.announce e).hearing = s.hearing := by
  simp [State.announce]
@[simp] theorem State.announce_nego (e : RosterEntry) (s : State) : (s.announce e).nego = s.nego := by
  simp [State.announce]
@[simp] theorem State.announce_steer (e : RosterEntry) (s : State) : (s.announce e).steer = s.steer := by
  simp [State.announce]
@[simp] theorem State.announce_loader (e : RosterEntry) (s : State) : (s.announce e).loader = s.loader := by
  simp [State.announce]
@[simp] theorem State.announce_freeIndex (e : RosterEntry) (s : State) : (s.announce e).freeIndex = s.freeIndex := by
  simp [State.announce]
@[simp] theorem State.announce_pending (e : RosterEntry) (s : State) : (s.announce e).pending = s.pending := by
  simp [State.announce]
@[simp] theorem State.announce_running (e : RosterEntry) (s : State) : (s.announce e).running = s.running := by simp [State.running]
@[simp] theorem State.announce_loaded (e : RosterEntry) (s : State) : (s.announce e).loaded = s.loaded := by simp [State.loaded]
@[simp] theorem State.announce_port_busy (e : RosterEntry) (s : State) : (s.announce e).port.busy = s.port.busy := by
  simp [State.announce]
@[simp] theorem State.announce_port_frame (e : RosterEntry) (s : State) : (s.announce e).port.frame = s.port.frame := by
  simp [State.announce]
@[simp] theorem State.announce_port_cursorTable (e : RosterEntry) (s : State) : (s.announce e).port.cursorTable = s.port.cursorTable := by
  simp [State.announce]
@[simp] theorem State.announce_port_cursorIndex (e : RosterEntry) (s : State) : (s.announce e).port.cursorIndex = s.port.cursorIndex := by
  simp [State.announce]
@[simp] theorem State.announce_port_holder (e : RosterEntry) (s : State) : (s.announce e).port.holder = s.port.holder := by
  simp [State.announce]
@[simp] theorem State.announce_port_fetch (e : RosterEntry) (s : State) : (s.announce e).port.fetch = s.port.fetch := by
  simp [State.announce]
@[simp] theorem State.announce_port_hold (e : RosterEntry) (s : State) : (s.announce e).port.hold = s.port.hold := by
  simp [State.announce]
@[simp] theorem State.announce_port_listenOnly (e : RosterEntry) (s : State) : (s.announce e).port.listenOnly = s.port.listenOnly := by
  simp [State.announce]
@[simp] theorem State.announce_port_mntDo (e : RosterEntry) (s : State) : (s.announce e).port.mntDo = s.port.mntDo := by
  simp [State.announce]
@[simp] theorem State.offerAsk_resetHeld (d : Departure) (s : State) : (s.offerAsk d).resetHeld = s.resetHeld := by
  simp [State.offerAsk]
@[simp] theorem State.offerAsk_now (d : Departure) (s : State) : (s.offerAsk d).now = s.now := by
  simp [State.offerAsk]
@[simp] theorem State.offerAsk_intake (d : Departure) (s : State) : (s.offerAsk d).intake = s.intake := by
  simp [State.offerAsk]
@[simp] theorem State.offerAsk_roster (d : Departure) (s : State) : (s.offerAsk d).roster = s.roster := by
  simp [State.offerAsk]
@[simp] theorem State.offerAsk_strays (d : Departure) (s : State) : (s.offerAsk d).strays = s.strays := by
  simp [State.offerAsk]
@[simp] theorem State.offerAsk_hearing (d : Departure) (s : State) : (s.offerAsk d).hearing = s.hearing := by
  simp [State.offerAsk]
@[simp] theorem State.offerAsk_nego (d : Departure) (s : State) : (s.offerAsk d).nego = s.nego := by
  simp [State.offerAsk]
@[simp] theorem State.offerAsk_steer (d : Departure) (s : State) : (s.offerAsk d).steer = s.steer := by
  simp [State.offerAsk]
@[simp] theorem State.offerAsk_loader (d : Departure) (s : State) : (s.offerAsk d).loader = s.loader := by
  simp [State.offerAsk]
@[simp] theorem State.offerAsk_freeIndex (d : Departure) (s : State) : (s.offerAsk d).freeIndex = s.freeIndex := by
  simp [State.offerAsk]
@[simp] theorem State.offerAsk_pending (d : Departure) (s : State) : (s.offerAsk d).pending = s.pending := by
  simp [State.offerAsk]
@[simp] theorem State.offerAsk_running (d : Departure) (s : State) : (s.offerAsk d).running = s.running := by simp [State.running]
@[simp] theorem State.offerAsk_loaded (d : Departure) (s : State) : (s.offerAsk d).loaded = s.loaded := by simp [State.loaded]
@[simp] theorem State.offerAsk_port_busy (d : Departure) (s : State) : (s.offerAsk d).port.busy = s.port.busy := by
  simp [State.offerAsk]
@[simp] theorem State.offerAsk_port_frame (d : Departure) (s : State) : (s.offerAsk d).port.frame = s.port.frame := by
  simp [State.offerAsk]
@[simp] theorem State.offerAsk_port_cursorTable (d : Departure) (s : State) : (s.offerAsk d).port.cursorTable = s.port.cursorTable := by
  simp [State.offerAsk]
@[simp] theorem State.offerAsk_port_cursorIndex (d : Departure) (s : State) : (s.offerAsk d).port.cursorIndex = s.port.cursorIndex := by
  simp [State.offerAsk]
@[simp] theorem State.offerAsk_port_holder (d : Departure) (s : State) : (s.offerAsk d).port.holder = s.port.holder := by
  simp [State.offerAsk]
@[simp] theorem State.offerAsk_port_fetch (d : Departure) (s : State) : (s.offerAsk d).port.fetch = s.port.fetch := by
  simp [State.offerAsk]
@[simp] theorem State.offerAsk_port_hold (d : Departure) (s : State) : (s.offerAsk d).port.hold = s.port.hold := by
  simp [State.offerAsk]
@[simp] theorem State.offerAsk_port_listenOnly (d : Departure) (s : State) : (s.offerAsk d).port.listenOnly = s.port.listenOnly := by
  simp [State.offerAsk]
@[simp] theorem State.offerAsk_port_mntDo (d : Departure) (s : State) : (s.offerAsk d).port.mntDo = s.port.mntDo := by
  simp [State.offerAsk]
@[simp] theorem State.openDeparture_resetHeld (i : Fin 64) (n : Fin 8) (s : State) : (s.openDeparture i n).resetHeld = s.resetHeld := by
  simp only [State.openDeparture]; (repeat' split) <;> simp
@[simp] theorem State.openDeparture_now (i : Fin 64) (n : Fin 8) (s : State) : (s.openDeparture i n).now = s.now := by
  simp only [State.openDeparture]; (repeat' split) <;> simp
@[simp] theorem State.openDeparture_intake (i : Fin 64) (n : Fin 8) (s : State) : (s.openDeparture i n).intake = s.intake := by
  simp only [State.openDeparture]; (repeat' split) <;> simp
@[simp] theorem State.openDeparture_strays (i : Fin 64) (n : Fin 8) (s : State) : (s.openDeparture i n).strays = s.strays := by
  simp only [State.openDeparture]; (repeat' split) <;> simp
@[simp] theorem State.openDeparture_hearing (i : Fin 64) (n : Fin 8) (s : State) : (s.openDeparture i n).hearing = s.hearing := by
  simp only [State.openDeparture]; (repeat' split) <;> simp
@[simp] theorem State.openDeparture_steer (i : Fin 64) (n : Fin 8) (s : State) : (s.openDeparture i n).steer = s.steer := by
  simp only [State.openDeparture]; (repeat' split) <;> simp
@[simp] theorem State.openDeparture_loader (i : Fin 64) (n : Fin 8) (s : State) : (s.openDeparture i n).loader = s.loader := by
  simp only [State.openDeparture]; (repeat' split) <;> simp
@[simp] theorem State.openDeparture_freeIndex (i : Fin 64) (n : Fin 8) (s : State) : (s.openDeparture i n).freeIndex = s.freeIndex := by
  simp only [State.openDeparture]; (repeat' split) <;> simp
@[simp] theorem State.openDeparture_pending (i : Fin 64) (n : Fin 8) (s : State) : (s.openDeparture i n).pending = s.pending := by
  simp only [State.openDeparture]; (repeat' split) <;> simp
@[simp] theorem State.openDeparture_running (i : Fin 64) (n : Fin 8) (s : State) : (s.openDeparture i n).running = s.running := by simp [State.running]
@[simp] theorem State.openDeparture_loaded (i : Fin 64) (n : Fin 8) (s : State) : (s.openDeparture i n).loaded = s.loaded := by simp [State.loaded]
@[simp] theorem State.openDeparture_port_busy (i : Fin 64) (n : Fin 8) (s : State) : (s.openDeparture i n).port.busy = s.port.busy := by
  simp only [State.openDeparture]; (repeat' split) <;> simp
@[simp] theorem State.openDeparture_port_frame (i : Fin 64) (n : Fin 8) (s : State) : (s.openDeparture i n).port.frame = s.port.frame := by
  simp only [State.openDeparture]; (repeat' split) <;> simp
@[simp] theorem State.openDeparture_port_cursorTable (i : Fin 64) (n : Fin 8) (s : State) : (s.openDeparture i n).port.cursorTable = s.port.cursorTable := by
  simp only [State.openDeparture]; (repeat' split) <;> simp
@[simp] theorem State.openDeparture_port_cursorIndex (i : Fin 64) (n : Fin 8) (s : State) : (s.openDeparture i n).port.cursorIndex = s.port.cursorIndex := by
  simp only [State.openDeparture]; (repeat' split) <;> simp
@[simp] theorem State.openDeparture_port_holder (i : Fin 64) (n : Fin 8) (s : State) : (s.openDeparture i n).port.holder = s.port.holder := by
  simp only [State.openDeparture]; (repeat' split) <;> simp
@[simp] theorem State.openDeparture_port_fetch (i : Fin 64) (n : Fin 8) (s : State) : (s.openDeparture i n).port.fetch = s.port.fetch := by
  simp only [State.openDeparture]; (repeat' split) <;> simp
@[simp] theorem State.openDeparture_port_hold (i : Fin 64) (n : Fin 8) (s : State) : (s.openDeparture i n).port.hold = s.port.hold := by
  simp only [State.openDeparture]; (repeat' split) <;> simp
@[simp] theorem State.openDeparture_port_listenOnly (i : Fin 64) (n : Fin 8) (s : State) : (s.openDeparture i n).port.listenOnly = s.port.listenOnly := by
  simp only [State.openDeparture]; (repeat' split) <;> simp
@[simp] theorem State.openDeparture_port_mntDo (i : Fin 64) (n : Fin 8) (s : State) : (s.openDeparture i n).port.mntDo = s.port.mntDo := by
  simp only [State.openDeparture]; (repeat' split) <;> simp
@[simp] theorem State.arbiter_resetHeld (s : State) : (s.arbiter).resetHeld = s.resetHeld := by
  simp only [State.arbiter]; (repeat' split) <;> simp
@[simp] theorem State.arbiter_now (s : State) : (s.arbiter).now = s.now := by
  simp only [State.arbiter]; (repeat' split) <;> simp
@[simp] theorem State.arbiter_intake (s : State) : (s.arbiter).intake = s.intake := by
  simp only [State.arbiter]; (repeat' split) <;> simp
@[simp] theorem State.arbiter_strays (s : State) : (s.arbiter).strays = s.strays := by
  simp only [State.arbiter]; (repeat' split) <;> simp
@[simp] theorem State.arbiter_hearing (s : State) : (s.arbiter).hearing = s.hearing := by
  simp only [State.arbiter]; (repeat' split) <;> simp
@[simp] theorem State.arbiter_steer (s : State) : (s.arbiter).steer = s.steer := by
  simp only [State.arbiter]; (repeat' split) <;> simp
@[simp] theorem State.arbiter_loader (s : State) : (s.arbiter).loader = s.loader := by
  simp only [State.arbiter]; (repeat' split) <;> simp
@[simp] theorem State.arbiter_freeIndex (s : State) : (s.arbiter).freeIndex = s.freeIndex := by
  simp only [State.arbiter]; (repeat' split) <;> simp
@[simp] theorem State.arbiter_pending (s : State) : (s.arbiter).pending = s.pending := by
  simp only [State.arbiter]; (repeat' split) <;> simp
@[simp] theorem State.arbiter_running (s : State) : (s.arbiter).running = s.running := by simp [State.running]
@[simp] theorem State.arbiter_loaded (s : State) : (s.arbiter).loaded = s.loaded := by simp [State.loaded]
@[simp] theorem State.arbiter_port_busy (s : State) : (s.arbiter).port.busy = s.port.busy := by
  simp only [State.arbiter]; (repeat' split) <;> simp
@[simp] theorem State.arbiter_port_frame (s : State) : (s.arbiter).port.frame = s.port.frame := by
  simp only [State.arbiter]; (repeat' split) <;> simp
@[simp] theorem State.arbiter_port_cursorTable (s : State) : (s.arbiter).port.cursorTable = s.port.cursorTable := by
  simp only [State.arbiter]; (repeat' split) <;> simp
@[simp] theorem State.arbiter_port_cursorIndex (s : State) : (s.arbiter).port.cursorIndex = s.port.cursorIndex := by
  simp only [State.arbiter]; (repeat' split) <;> simp
@[simp] theorem State.arbiter_port_holder (s : State) : (s.arbiter).port.holder = s.port.holder := by
  simp only [State.arbiter]; (repeat' split) <;> simp
@[simp] theorem State.arbiter_port_fetch (s : State) : (s.arbiter).port.fetch = s.port.fetch := by
  simp only [State.arbiter]; (repeat' split) <;> simp
@[simp] theorem State.arbiter_port_hold (s : State) : (s.arbiter).port.hold = s.port.hold := by
  simp only [State.arbiter]; (repeat' split) <;> simp
@[simp] theorem State.arbiter_port_listenOnly (s : State) : (s.arbiter).port.listenOnly = s.port.listenOnly := by
  simp only [State.arbiter]; (repeat' split) <;> simp
@[simp] theorem State.arbiter_port_mntDo (s : State) : (s.arbiter).port.mntDo = s.port.mntDo := by
  simp only [State.arbiter]; (repeat' split) <;> simp
@[simp] theorem State.revert_resetHeld (d : Departure) (s : State) : (s.revert d).resetHeld = s.resetHeld := by
  simp only [State.revert]; (repeat' split) <;> simp
@[simp] theorem State.revert_now (d : Departure) (s : State) : (s.revert d).now = s.now := by
  simp only [State.revert]; (repeat' split) <;> simp
@[simp] theorem State.revert_intake (d : Departure) (s : State) : (s.revert d).intake = s.intake := by
  simp only [State.revert]; (repeat' split) <;> simp
@[simp] theorem State.revert_strays (d : Departure) (s : State) : (s.revert d).strays = s.strays := by
  simp only [State.revert]; (repeat' split) <;> simp
@[simp] theorem State.revert_hearing (d : Departure) (s : State) : (s.revert d).hearing = s.hearing := by
  simp only [State.revert]; (repeat' split) <;> simp
@[simp] theorem State.revert_link (d : Departure) (s : State) : (s.revert d).link = s.link := by
  simp only [State.revert]; (repeat' split) <;> simp
@[simp] theorem State.revert_loader (d : Departure) (s : State) : (s.revert d).loader = s.loader := by
  simp only [State.revert]; (repeat' split) <;> simp
@[simp] theorem State.revert_port (d : Departure) (s : State) : (s.revert d).port = s.port := by
  simp only [State.revert]; (repeat' split) <;> simp
@[simp] theorem State.revert_freeIndex (d : Departure) (s : State) : (s.revert d).freeIndex = s.freeIndex := by
  simp only [State.revert]; (repeat' split) <;> simp
@[simp] theorem State.revert_pending (d : Departure) (s : State) : (s.revert d).pending = s.pending := by
  simp only [State.revert]; (repeat' split) <;> simp
@[simp] theorem State.revert_running (d : Departure) (s : State) : (s.revert d).running = s.running := by simp [State.running]
@[simp] theorem State.revert_loaded (d : Departure) (s : State) : (s.revert d).loaded = s.loaded := by simp [State.loaded]
@[simp] theorem State.depart_resetHeld (i : Fin 64) (r : Radio) (t : Byte) (o : Departed) (s : State) : (s.depart i r t o).resetHeld = s.resetHeld := by
  simp only [State.depart]; (repeat' split) <;> simp
@[simp] theorem State.depart_now (i : Fin 64) (r : Radio) (t : Byte) (o : Departed) (s : State) : (s.depart i r t o).now = s.now := by
  simp only [State.depart]; (repeat' split) <;> simp
@[simp] theorem State.depart_intake (i : Fin 64) (r : Radio) (t : Byte) (o : Departed) (s : State) : (s.depart i r t o).intake = s.intake := by
  simp only [State.depart]; (repeat' split) <;> simp
@[simp] theorem State.depart_strays (i : Fin 64) (r : Radio) (t : Byte) (o : Departed) (s : State) : (s.depart i r t o).strays = s.strays := by
  simp only [State.depart]; (repeat' split) <;> simp
@[simp] theorem State.depart_loader (i : Fin 64) (r : Radio) (t : Byte) (o : Departed) (s : State) : (s.depart i r t o).loader = s.loader := by
  simp only [State.depart]; (repeat' split) <;> simp
@[simp] theorem State.depart_freeIndex (i : Fin 64) (r : Radio) (t : Byte) (o : Departed) (s : State) : (s.depart i r t o).freeIndex = s.freeIndex := by
  simp only [State.depart]; (repeat' split) <;> simp
@[simp] theorem State.depart_pending (i : Fin 64) (r : Radio) (t : Byte) (o : Departed) (s : State) : (s.depart i r t o).pending = s.pending := by
  simp only [State.depart]; (repeat' split) <;> simp
@[simp] theorem State.depart_running (i : Fin 64) (r : Radio) (t : Byte) (o : Departed) (s : State) : (s.depart i r t o).running = s.running := by simp [State.running]
@[simp] theorem State.depart_loaded (i : Fin 64) (r : Radio) (t : Byte) (o : Departed) (s : State) : (s.depart i r t o).loaded = s.loaded := by simp [State.loaded]
@[simp] theorem State.depart_port_busy (i : Fin 64) (r : Radio) (t : Byte) (o : Departed) (s : State) : (s.depart i r t o).port.busy = s.port.busy := by
  simp only [State.depart]; (repeat' split) <;> simp
@[simp] theorem State.depart_port_frame (i : Fin 64) (r : Radio) (t : Byte) (o : Departed) (s : State) : (s.depart i r t o).port.frame = s.port.frame := by
  simp only [State.depart]; (repeat' split) <;> simp
@[simp] theorem State.depart_port_cursorTable (i : Fin 64) (r : Radio) (t : Byte) (o : Departed) (s : State) : (s.depart i r t o).port.cursorTable = s.port.cursorTable := by
  simp only [State.depart]; (repeat' split) <;> simp
@[simp] theorem State.depart_port_cursorIndex (i : Fin 64) (r : Radio) (t : Byte) (o : Departed) (s : State) : (s.depart i r t o).port.cursorIndex = s.port.cursorIndex := by
  simp only [State.depart]; (repeat' split) <;> simp
@[simp] theorem State.depart_port_holder (i : Fin 64) (r : Radio) (t : Byte) (o : Departed) (s : State) : (s.depart i r t o).port.holder = s.port.holder := by
  simp only [State.depart]; (repeat' split) <;> simp
@[simp] theorem State.depart_port_fetch (i : Fin 64) (r : Radio) (t : Byte) (o : Departed) (s : State) : (s.depart i r t o).port.fetch = s.port.fetch := by
  simp only [State.depart]; (repeat' split) <;> simp
@[simp] theorem State.depart_port_hold (i : Fin 64) (r : Radio) (t : Byte) (o : Departed) (s : State) : (s.depart i r t o).port.hold = s.port.hold := by
  simp only [State.depart]; (repeat' split) <;> simp
@[simp] theorem State.depart_port_listenOnly (i : Fin 64) (r : Radio) (t : Byte) (o : Departed) (s : State) : (s.depart i r t o).port.listenOnly = s.port.listenOnly := by
  simp only [State.depart]; (repeat' split) <;> simp
@[simp] theorem State.depart_port_mntDo (i : Fin 64) (r : Radio) (t : Byte) (o : Departed) (s : State) : (s.depart i r t o).port.mntDo = s.port.mntDo := by
  simp only [State.depart]; (repeat' split) <;> simp
@[simp] theorem State.leaveEnds_resetHeld (d : Departure) (s : State) : (s.leaveEnds d).resetHeld = s.resetHeld := by
  simp only [State.leaveEnds]; (repeat' split) <;> simp
@[simp] theorem State.leaveEnds_now (d : Departure) (s : State) : (s.leaveEnds d).now = s.now := by
  simp only [State.leaveEnds]; (repeat' split) <;> simp
@[simp] theorem State.leaveEnds_intake (d : Departure) (s : State) : (s.leaveEnds d).intake = s.intake := by
  simp only [State.leaveEnds]; (repeat' split) <;> simp
@[simp] theorem State.leaveEnds_strays (d : Departure) (s : State) : (s.leaveEnds d).strays = s.strays := by
  simp only [State.leaveEnds]; (repeat' split) <;> simp
@[simp] theorem State.leaveEnds_loader (d : Departure) (s : State) : (s.leaveEnds d).loader = s.loader := by
  simp only [State.leaveEnds]; (repeat' split) <;> simp
@[simp] theorem State.leaveEnds_freeIndex (d : Departure) (s : State) : (s.leaveEnds d).freeIndex = s.freeIndex := by
  simp only [State.leaveEnds]; (repeat' split) <;> simp
@[simp] theorem State.leaveEnds_pending (d : Departure) (s : State) : (s.leaveEnds d).pending = s.pending := by
  simp only [State.leaveEnds]; (repeat' split) <;> simp
@[simp] theorem State.leaveEnds_running (d : Departure) (s : State) : (s.leaveEnds d).running = s.running := by simp [State.running]
@[simp] theorem State.leaveEnds_loaded (d : Departure) (s : State) : (s.leaveEnds d).loaded = s.loaded := by simp [State.loaded]
@[simp] theorem State.leaveEnds_port_busy (d : Departure) (s : State) : (s.leaveEnds d).port.busy = s.port.busy := by
  simp only [State.leaveEnds]; (repeat' split) <;> simp
@[simp] theorem State.leaveEnds_port_frame (d : Departure) (s : State) : (s.leaveEnds d).port.frame = s.port.frame := by
  simp only [State.leaveEnds]; (repeat' split) <;> simp
@[simp] theorem State.leaveEnds_port_cursorTable (d : Departure) (s : State) : (s.leaveEnds d).port.cursorTable = s.port.cursorTable := by
  simp only [State.leaveEnds]; (repeat' split) <;> simp
@[simp] theorem State.leaveEnds_port_cursorIndex (d : Departure) (s : State) : (s.leaveEnds d).port.cursorIndex = s.port.cursorIndex := by
  simp only [State.leaveEnds]; (repeat' split) <;> simp
@[simp] theorem State.leaveEnds_port_holder (d : Departure) (s : State) : (s.leaveEnds d).port.holder = s.port.holder := by
  simp only [State.leaveEnds]; (repeat' split) <;> simp
@[simp] theorem State.leaveEnds_port_fetch (d : Departure) (s : State) : (s.leaveEnds d).port.fetch = s.port.fetch := by
  simp only [State.leaveEnds]; (repeat' split) <;> simp
@[simp] theorem State.leaveEnds_port_hold (d : Departure) (s : State) : (s.leaveEnds d).port.hold = s.port.hold := by
  simp only [State.leaveEnds]; (repeat' split) <;> simp
@[simp] theorem State.leaveEnds_port_listenOnly (d : Departure) (s : State) : (s.leaveEnds d).port.listenOnly = s.port.listenOnly := by
  simp only [State.leaveEnds]; (repeat' split) <;> simp
@[simp] theorem State.leaveEnds_port_mntDo (d : Departure) (s : State) : (s.leaveEnds d).port.mntDo = s.port.mntDo := by
  simp only [State.leaveEnds]; (repeat' split) <;> simp
@[simp] theorem State.home_resetHeld (i : Fin 64) (o : Observation) (s : State) : (s.home i o).resetHeld = s.resetHeld := by
  simp [State.home]
@[simp] theorem State.home_now (i : Fin 64) (o : Observation) (s : State) : (s.home i o).now = s.now := by
  simp [State.home]
@[simp] theorem State.home_intake (i : Fin 64) (o : Observation) (s : State) : (s.home i o).intake = s.intake := by
  simp [State.home]
@[simp] theorem State.home_hearing (i : Fin 64) (o : Observation) (s : State) : (s.home i o).hearing = s.hearing := by
  simp [State.home]
@[simp] theorem State.home_nego (i : Fin 64) (o : Observation) (s : State) : (s.home i o).nego = s.nego := by
  simp [State.home]
@[simp] theorem State.home_loader (i : Fin 64) (o : Observation) (s : State) : (s.home i o).loader = s.loader := by
  simp [State.home]
@[simp] theorem State.home_freeIndex (i : Fin 64) (o : Observation) (s : State) : (s.home i o).freeIndex = s.freeIndex := by
  simp [State.home]
@[simp] theorem State.home_pending (i : Fin 64) (o : Observation) (s : State) : (s.home i o).pending = s.pending := by
  simp [State.home]
@[simp] theorem State.home_running (i : Fin 64) (o : Observation) (s : State) : (s.home i o).running = s.running := by simp [State.running]
@[simp] theorem State.home_loaded (i : Fin 64) (o : Observation) (s : State) : (s.home i o).loaded = s.loaded := by simp [State.loaded]
@[simp] theorem State.home_port_busy (i : Fin 64) (o : Observation) (s : State) : (s.home i o).port.busy = s.port.busy := by
  simp [State.home]
@[simp] theorem State.home_port_frame (i : Fin 64) (o : Observation) (s : State) : (s.home i o).port.frame = s.port.frame := by
  simp [State.home]
@[simp] theorem State.home_port_cursorTable (i : Fin 64) (o : Observation) (s : State) : (s.home i o).port.cursorTable = s.port.cursorTable := by
  simp [State.home]
@[simp] theorem State.home_port_cursorIndex (i : Fin 64) (o : Observation) (s : State) : (s.home i o).port.cursorIndex = s.port.cursorIndex := by
  simp [State.home]
@[simp] theorem State.home_port_holder (i : Fin 64) (o : Observation) (s : State) : (s.home i o).port.holder = s.port.holder := by
  simp [State.home]
@[simp] theorem State.home_port_fetch (i : Fin 64) (o : Observation) (s : State) : (s.home i o).port.fetch = s.port.fetch := by
  simp [State.home]
@[simp] theorem State.home_port_hold (i : Fin 64) (o : Observation) (s : State) : (s.home i o).port.hold = s.port.hold := by
  simp [State.home]
@[simp] theorem State.home_port_listenOnly (i : Fin 64) (o : Observation) (s : State) : (s.home i o).port.listenOnly = s.port.listenOnly := by
  simp [State.home]
@[simp] theorem State.home_port_mntDo (i : Fin 64) (o : Observation) (s : State) : (s.home i o).port.mntDo = s.port.mntDo := by
  simp [State.home]
@[simp] theorem State.refuseHoming_resetHeld (o : Observation) (s : State) : (s.refuseHoming o).resetHeld = s.resetHeld := by
  simp [State.refuseHoming]
@[simp] theorem State.refuseHoming_now (o : Observation) (s : State) : (s.refuseHoming o).now = s.now := by
  simp [State.refuseHoming]
@[simp] theorem State.refuseHoming_intake (o : Observation) (s : State) : (s.refuseHoming o).intake = s.intake := by
  simp [State.refuseHoming]
@[simp] theorem State.refuseHoming_roster (o : Observation) (s : State) : (s.refuseHoming o).roster = s.roster := by
  simp [State.refuseHoming]
@[simp] theorem State.refuseHoming_strays (o : Observation) (s : State) : (s.refuseHoming o).strays = s.strays := by
  simp [State.refuseHoming]
@[simp] theorem State.refuseHoming_hearing (o : Observation) (s : State) : (s.refuseHoming o).hearing = s.hearing := by
  simp [State.refuseHoming]
@[simp] theorem State.refuseHoming_nego (o : Observation) (s : State) : (s.refuseHoming o).nego = s.nego := by
  simp [State.refuseHoming]
@[simp] theorem State.refuseHoming_link (o : Observation) (s : State) : (s.refuseHoming o).link = s.link := by
  simp [State.refuseHoming]
@[simp] theorem State.refuseHoming_loader (o : Observation) (s : State) : (s.refuseHoming o).loader = s.loader := by
  simp [State.refuseHoming]
@[simp] theorem State.refuseHoming_freeIndex (o : Observation) (s : State) : (s.refuseHoming o).freeIndex = s.freeIndex := by
  simp [State.refuseHoming]
@[simp] theorem State.refuseHoming_pending (o : Observation) (s : State) : (s.refuseHoming o).pending = s.pending := by
  simp [State.refuseHoming]
@[simp] theorem State.refuseHoming_running (o : Observation) (s : State) : (s.refuseHoming o).running = s.running := by simp [State.running]
@[simp] theorem State.refuseHoming_loaded (o : Observation) (s : State) : (s.refuseHoming o).loaded = s.loaded := by simp [State.loaded]
@[simp] theorem State.refuseHoming_port_busy (o : Observation) (s : State) : (s.refuseHoming o).port.busy = s.port.busy := by
  simp [State.refuseHoming]
@[simp] theorem State.refuseHoming_port_frame (o : Observation) (s : State) : (s.refuseHoming o).port.frame = s.port.frame := by
  simp [State.refuseHoming]
@[simp] theorem State.refuseHoming_port_cursorTable (o : Observation) (s : State) : (s.refuseHoming o).port.cursorTable = s.port.cursorTable := by
  simp [State.refuseHoming]
@[simp] theorem State.refuseHoming_port_cursorIndex (o : Observation) (s : State) : (s.refuseHoming o).port.cursorIndex = s.port.cursorIndex := by
  simp [State.refuseHoming]
@[simp] theorem State.refuseHoming_port_holder (o : Observation) (s : State) : (s.refuseHoming o).port.holder = s.port.holder := by
  simp [State.refuseHoming]
@[simp] theorem State.refuseHoming_port_fetch (o : Observation) (s : State) : (s.refuseHoming o).port.fetch = s.port.fetch := by
  simp [State.refuseHoming]
@[simp] theorem State.refuseHoming_port_hold (o : Observation) (s : State) : (s.refuseHoming o).port.hold = s.port.hold := by
  simp [State.refuseHoming]
@[simp] theorem State.refuseHoming_port_listenOnly (o : Observation) (s : State) : (s.refuseHoming o).port.listenOnly = s.port.listenOnly := by
  simp [State.refuseHoming]
@[simp] theorem State.refuseHoming_port_mntDo (o : Observation) (s : State) : (s.refuseHoming o).port.mntDo = s.port.mntDo := by
  simp [State.refuseHoming]
@[simp] theorem State.homeOrRefuse_resetHeld (o : Observation) (s : State) : (s.homeOrRefuse o).resetHeld = s.resetHeld := by
  simp only [State.homeOrRefuse]; (repeat' split) <;> simp
@[simp] theorem State.homeOrRefuse_now (o : Observation) (s : State) : (s.homeOrRefuse o).now = s.now := by
  simp only [State.homeOrRefuse]; (repeat' split) <;> simp
@[simp] theorem State.homeOrRefuse_intake (o : Observation) (s : State) : (s.homeOrRefuse o).intake = s.intake := by
  simp only [State.homeOrRefuse]; (repeat' split) <;> simp
@[simp] theorem State.homeOrRefuse_hearing (o : Observation) (s : State) : (s.homeOrRefuse o).hearing = s.hearing := by
  simp only [State.homeOrRefuse]; (repeat' split) <;> simp
@[simp] theorem State.homeOrRefuse_nego (o : Observation) (s : State) : (s.homeOrRefuse o).nego = s.nego := by
  simp only [State.homeOrRefuse]; (repeat' split) <;> simp
@[simp] theorem State.homeOrRefuse_loader (o : Observation) (s : State) : (s.homeOrRefuse o).loader = s.loader := by
  simp only [State.homeOrRefuse]; (repeat' split) <;> simp
@[simp] theorem State.homeOrRefuse_freeIndex (o : Observation) (s : State) : (s.homeOrRefuse o).freeIndex = s.freeIndex := by
  simp only [State.homeOrRefuse]; (repeat' split) <;> simp
@[simp] theorem State.homeOrRefuse_pending (o : Observation) (s : State) : (s.homeOrRefuse o).pending = s.pending := by
  simp only [State.homeOrRefuse]; (repeat' split) <;> simp
@[simp] theorem State.homeOrRefuse_running (o : Observation) (s : State) : (s.homeOrRefuse o).running = s.running := by simp [State.running]
@[simp] theorem State.homeOrRefuse_loaded (o : Observation) (s : State) : (s.homeOrRefuse o).loaded = s.loaded := by simp [State.loaded]
@[simp] theorem State.homeOrRefuse_port_busy (o : Observation) (s : State) : (s.homeOrRefuse o).port.busy = s.port.busy := by
  simp only [State.homeOrRefuse]; (repeat' split) <;> simp
@[simp] theorem State.homeOrRefuse_port_frame (o : Observation) (s : State) : (s.homeOrRefuse o).port.frame = s.port.frame := by
  simp only [State.homeOrRefuse]; (repeat' split) <;> simp
@[simp] theorem State.homeOrRefuse_port_cursorTable (o : Observation) (s : State) : (s.homeOrRefuse o).port.cursorTable = s.port.cursorTable := by
  simp only [State.homeOrRefuse]; (repeat' split) <;> simp
@[simp] theorem State.homeOrRefuse_port_cursorIndex (o : Observation) (s : State) : (s.homeOrRefuse o).port.cursorIndex = s.port.cursorIndex := by
  simp only [State.homeOrRefuse]; (repeat' split) <;> simp
@[simp] theorem State.homeOrRefuse_port_holder (o : Observation) (s : State) : (s.homeOrRefuse o).port.holder = s.port.holder := by
  simp only [State.homeOrRefuse]; (repeat' split) <;> simp
@[simp] theorem State.homeOrRefuse_port_fetch (o : Observation) (s : State) : (s.homeOrRefuse o).port.fetch = s.port.fetch := by
  simp only [State.homeOrRefuse]; (repeat' split) <;> simp
@[simp] theorem State.homeOrRefuse_port_hold (o : Observation) (s : State) : (s.homeOrRefuse o).port.hold = s.port.hold := by
  simp only [State.homeOrRefuse]; (repeat' split) <;> simp
@[simp] theorem State.homeOrRefuse_port_listenOnly (o : Observation) (s : State) : (s.homeOrRefuse o).port.listenOnly = s.port.listenOnly := by
  simp only [State.homeOrRefuse]; (repeat' split) <;> simp
@[simp] theorem State.homeOrRefuse_port_mntDo (o : Observation) (s : State) : (s.homeOrRefuse o).port.mntDo = s.port.mntDo := by
  simp only [State.homeOrRefuse]; (repeat' split) <;> simp
@[simp] theorem State.arrive_resetHeld (i : Fin 64) (e : RosterEntry) (o : Observation) (s : State) : (s.arrive i e o).resetHeld = s.resetHeld := by
  simp [State.arrive]
@[simp] theorem State.arrive_now (i : Fin 64) (e : RosterEntry) (o : Observation) (s : State) : (s.arrive i e o).now = s.now := by
  simp [State.arrive]
@[simp] theorem State.arrive_intake (i : Fin 64) (e : RosterEntry) (o : Observation) (s : State) : (s.arrive i e o).intake = s.intake := by
  simp [State.arrive]
@[simp] theorem State.arrive_strays (i : Fin 64) (e : RosterEntry) (o : Observation) (s : State) : (s.arrive i e o).strays = s.strays := by
  simp [State.arrive]
@[simp] theorem State.arrive_hearing (i : Fin 64) (e : RosterEntry) (o : Observation) (s : State) : (s.arrive i e o).hearing = s.hearing := by
  simp [State.arrive]
@[simp] theorem State.arrive_nego (i : Fin 64) (e : RosterEntry) (o : Observation) (s : State) : (s.arrive i e o).nego = s.nego := by
  simp [State.arrive]
@[simp] theorem State.arrive_steer (i : Fin 64) (e : RosterEntry) (o : Observation) (s : State) : (s.arrive i e o).steer = s.steer := by
  simp [State.arrive]
@[simp] theorem State.arrive_loader (i : Fin 64) (e : RosterEntry) (o : Observation) (s : State) : (s.arrive i e o).loader = s.loader := by
  simp [State.arrive]
@[simp] theorem State.arrive_freeIndex (i : Fin 64) (e : RosterEntry) (o : Observation) (s : State) : (s.arrive i e o).freeIndex = s.freeIndex := by
  simp [State.arrive]
@[simp] theorem State.arrive_pending (i : Fin 64) (e : RosterEntry) (o : Observation) (s : State) : (s.arrive i e o).pending = s.pending := by
  simp [State.arrive]
@[simp] theorem State.arrive_running (i : Fin 64) (e : RosterEntry) (o : Observation) (s : State) : (s.arrive i e o).running = s.running := by simp [State.running]
@[simp] theorem State.arrive_loaded (i : Fin 64) (e : RosterEntry) (o : Observation) (s : State) : (s.arrive i e o).loaded = s.loaded := by simp [State.loaded]
@[simp] theorem State.arrive_port_busy (i : Fin 64) (e : RosterEntry) (o : Observation) (s : State) : (s.arrive i e o).port.busy = s.port.busy := by
  simp [State.arrive]
@[simp] theorem State.arrive_port_frame (i : Fin 64) (e : RosterEntry) (o : Observation) (s : State) : (s.arrive i e o).port.frame = s.port.frame := by
  simp [State.arrive]
@[simp] theorem State.arrive_port_cursorTable (i : Fin 64) (e : RosterEntry) (o : Observation) (s : State) : (s.arrive i e o).port.cursorTable = s.port.cursorTable := by
  simp [State.arrive]
@[simp] theorem State.arrive_port_cursorIndex (i : Fin 64) (e : RosterEntry) (o : Observation) (s : State) : (s.arrive i e o).port.cursorIndex = s.port.cursorIndex := by
  simp [State.arrive]
@[simp] theorem State.arrive_port_holder (i : Fin 64) (e : RosterEntry) (o : Observation) (s : State) : (s.arrive i e o).port.holder = s.port.holder := by
  simp [State.arrive]
@[simp] theorem State.arrive_port_fetch (i : Fin 64) (e : RosterEntry) (o : Observation) (s : State) : (s.arrive i e o).port.fetch = s.port.fetch := by
  simp [State.arrive]
@[simp] theorem State.arrive_port_hold (i : Fin 64) (e : RosterEntry) (o : Observation) (s : State) : (s.arrive i e o).port.hold = s.port.hold := by
  simp [State.arrive]
@[simp] theorem State.arrive_port_listenOnly (i : Fin 64) (e : RosterEntry) (o : Observation) (s : State) : (s.arrive i e o).port.listenOnly = s.port.listenOnly := by
  simp [State.arrive]
@[simp] theorem State.arrive_port_mntDo (i : Fin 64) (e : RosterEntry) (o : Observation) (s : State) : (s.arrive i e o).port.mntDo = s.port.mntDo := by
  simp [State.arrive]
@[simp] theorem State.hearLeaving_resetHeld (i : Fin 64) (r : Radio) (o : Observation) (s : State) : (s.hearLeaving i r o).resetHeld = s.resetHeld := by
  simp only [State.hearLeaving]; (repeat' split) <;> simp
@[simp] theorem State.hearLeaving_now (i : Fin 64) (r : Radio) (o : Observation) (s : State) : (s.hearLeaving i r o).now = s.now := by
  simp only [State.hearLeaving]; (repeat' split) <;> simp
@[simp] theorem State.hearLeaving_intake (i : Fin 64) (r : Radio) (o : Observation) (s : State) : (s.hearLeaving i r o).intake = s.intake := by
  simp only [State.hearLeaving]; (repeat' split) <;> simp
@[simp] theorem State.hearLeaving_strays (i : Fin 64) (r : Radio) (o : Observation) (s : State) : (s.hearLeaving i r o).strays = s.strays := by
  simp only [State.hearLeaving]; (repeat' split) <;> simp
@[simp] theorem State.hearLeaving_hearing (i : Fin 64) (r : Radio) (o : Observation) (s : State) : (s.hearLeaving i r o).hearing = s.hearing := by
  simp only [State.hearLeaving]; (repeat' split) <;> simp
@[simp] theorem State.hearLeaving_loader (i : Fin 64) (r : Radio) (o : Observation) (s : State) : (s.hearLeaving i r o).loader = s.loader := by
  simp only [State.hearLeaving]; (repeat' split) <;> simp
@[simp] theorem State.hearLeaving_freeIndex (i : Fin 64) (r : Radio) (o : Observation) (s : State) : (s.hearLeaving i r o).freeIndex = s.freeIndex := by
  simp only [State.hearLeaving]; (repeat' split) <;> simp
@[simp] theorem State.hearLeaving_pending (i : Fin 64) (r : Radio) (o : Observation) (s : State) : (s.hearLeaving i r o).pending = s.pending := by
  simp only [State.hearLeaving]; (repeat' split) <;> simp
@[simp] theorem State.hearLeaving_running (i : Fin 64) (r : Radio) (o : Observation) (s : State) : (s.hearLeaving i r o).running = s.running := by simp [State.running]
@[simp] theorem State.hearLeaving_loaded (i : Fin 64) (r : Radio) (o : Observation) (s : State) : (s.hearLeaving i r o).loaded = s.loaded := by simp [State.loaded]
@[simp] theorem State.hearLeaving_port_busy (i : Fin 64) (r : Radio) (o : Observation) (s : State) : (s.hearLeaving i r o).port.busy = s.port.busy := by
  simp only [State.hearLeaving]; (repeat' split) <;> simp
@[simp] theorem State.hearLeaving_port_frame (i : Fin 64) (r : Radio) (o : Observation) (s : State) : (s.hearLeaving i r o).port.frame = s.port.frame := by
  simp only [State.hearLeaving]; (repeat' split) <;> simp
@[simp] theorem State.hearLeaving_port_cursorTable (i : Fin 64) (r : Radio) (o : Observation) (s : State) : (s.hearLeaving i r o).port.cursorTable = s.port.cursorTable := by
  simp only [State.hearLeaving]; (repeat' split) <;> simp
@[simp] theorem State.hearLeaving_port_cursorIndex (i : Fin 64) (r : Radio) (o : Observation) (s : State) : (s.hearLeaving i r o).port.cursorIndex = s.port.cursorIndex := by
  simp only [State.hearLeaving]; (repeat' split) <;> simp
@[simp] theorem State.hearLeaving_port_holder (i : Fin 64) (r : Radio) (o : Observation) (s : State) : (s.hearLeaving i r o).port.holder = s.port.holder := by
  simp only [State.hearLeaving]; (repeat' split) <;> simp
@[simp] theorem State.hearLeaving_port_fetch (i : Fin 64) (r : Radio) (o : Observation) (s : State) : (s.hearLeaving i r o).port.fetch = s.port.fetch := by
  simp only [State.hearLeaving]; (repeat' split) <;> simp
@[simp] theorem State.hearLeaving_port_hold (i : Fin 64) (r : Radio) (o : Observation) (s : State) : (s.hearLeaving i r o).port.hold = s.port.hold := by
  simp only [State.hearLeaving]; (repeat' split) <;> simp
@[simp] theorem State.hearLeaving_port_listenOnly (i : Fin 64) (r : Radio) (o : Observation) (s : State) : (s.hearLeaving i r o).port.listenOnly = s.port.listenOnly := by
  simp only [State.hearLeaving]; (repeat' split) <;> simp
@[simp] theorem State.hearLeaving_port_mntDo (i : Fin 64) (r : Radio) (o : Observation) (s : State) : (s.hearLeaving i r o).port.mntDo = s.port.mntDo := by
  simp only [State.hearLeaving]; (repeat' split) <;> simp
@[simp] theorem State.hearRostered_resetHeld (i : Fin 64) (e : RosterEntry) (o : Observation) (s : State) : (s.hearRostered i e o).resetHeld = s.resetHeld := by
  simp only [State.hearRostered]; (repeat' split) <;> simp
@[simp] theorem State.hearRostered_now (i : Fin 64) (e : RosterEntry) (o : Observation) (s : State) : (s.hearRostered i e o).now = s.now := by
  simp only [State.hearRostered]; (repeat' split) <;> simp
@[simp] theorem State.hearRostered_intake (i : Fin 64) (e : RosterEntry) (o : Observation) (s : State) : (s.hearRostered i e o).intake = s.intake := by
  simp only [State.hearRostered]; (repeat' split) <;> simp
@[simp] theorem State.hearRostered_strays (i : Fin 64) (e : RosterEntry) (o : Observation) (s : State) : (s.hearRostered i e o).strays = s.strays := by
  simp only [State.hearRostered]; (repeat' split) <;> simp
@[simp] theorem State.hearRostered_hearing (i : Fin 64) (e : RosterEntry) (o : Observation) (s : State) : (s.hearRostered i e o).hearing = s.hearing := by
  simp only [State.hearRostered]; (repeat' split) <;> simp
@[simp] theorem State.hearRostered_loader (i : Fin 64) (e : RosterEntry) (o : Observation) (s : State) : (s.hearRostered i e o).loader = s.loader := by
  simp only [State.hearRostered]; (repeat' split) <;> simp
@[simp] theorem State.hearRostered_freeIndex (i : Fin 64) (e : RosterEntry) (o : Observation) (s : State) : (s.hearRostered i e o).freeIndex = s.freeIndex := by
  simp only [State.hearRostered]; (repeat' split) <;> simp
@[simp] theorem State.hearRostered_pending (i : Fin 64) (e : RosterEntry) (o : Observation) (s : State) : (s.hearRostered i e o).pending = s.pending := by
  simp only [State.hearRostered]; (repeat' split) <;> simp
@[simp] theorem State.hearRostered_running (i : Fin 64) (e : RosterEntry) (o : Observation) (s : State) : (s.hearRostered i e o).running = s.running := by simp [State.running]
@[simp] theorem State.hearRostered_loaded (i : Fin 64) (e : RosterEntry) (o : Observation) (s : State) : (s.hearRostered i e o).loaded = s.loaded := by simp [State.loaded]
@[simp] theorem State.hearRostered_port_busy (i : Fin 64) (e : RosterEntry) (o : Observation) (s : State) : (s.hearRostered i e o).port.busy = s.port.busy := by
  simp only [State.hearRostered]; (repeat' split) <;> simp
@[simp] theorem State.hearRostered_port_frame (i : Fin 64) (e : RosterEntry) (o : Observation) (s : State) : (s.hearRostered i e o).port.frame = s.port.frame := by
  simp only [State.hearRostered]; (repeat' split) <;> simp
@[simp] theorem State.hearRostered_port_cursorTable (i : Fin 64) (e : RosterEntry) (o : Observation) (s : State) : (s.hearRostered i e o).port.cursorTable = s.port.cursorTable := by
  simp only [State.hearRostered]; (repeat' split) <;> simp
@[simp] theorem State.hearRostered_port_cursorIndex (i : Fin 64) (e : RosterEntry) (o : Observation) (s : State) : (s.hearRostered i e o).port.cursorIndex = s.port.cursorIndex := by
  simp only [State.hearRostered]; (repeat' split) <;> simp
@[simp] theorem State.hearRostered_port_holder (i : Fin 64) (e : RosterEntry) (o : Observation) (s : State) : (s.hearRostered i e o).port.holder = s.port.holder := by
  simp only [State.hearRostered]; (repeat' split) <;> simp
@[simp] theorem State.hearRostered_port_fetch (i : Fin 64) (e : RosterEntry) (o : Observation) (s : State) : (s.hearRostered i e o).port.fetch = s.port.fetch := by
  simp only [State.hearRostered]; (repeat' split) <;> simp
@[simp] theorem State.hearRostered_port_hold (i : Fin 64) (e : RosterEntry) (o : Observation) (s : State) : (s.hearRostered i e o).port.hold = s.port.hold := by
  simp only [State.hearRostered]; (repeat' split) <;> simp
@[simp] theorem State.hearRostered_port_listenOnly (i : Fin 64) (e : RosterEntry) (o : Observation) (s : State) : (s.hearRostered i e o).port.listenOnly = s.port.listenOnly := by
  simp only [State.hearRostered]; (repeat' split) <;> simp
@[simp] theorem State.hearRostered_port_mntDo (i : Fin 64) (e : RosterEntry) (o : Observation) (s : State) : (s.hearRostered i e o).port.mntDo = s.port.mntDo := by
  simp only [State.hearRostered]; (repeat' split) <;> simp
@[simp] theorem State.deliver_resetHeld (o : Observation) (s : State) : (s.deliver o).resetHeld = s.resetHeld := by
  simp only [State.deliver]; (repeat' split) <;> simp
@[simp] theorem State.deliver_now (o : Observation) (s : State) : (s.deliver o).now = s.now := by
  simp only [State.deliver]; (repeat' split) <;> simp
@[simp] theorem State.deliver_intake (o : Observation) (s : State) : (s.deliver o).intake = s.intake := by
  simp only [State.deliver]; (repeat' split) <;> simp
@[simp] theorem State.deliver_hearing (o : Observation) (s : State) : (s.deliver o).hearing = s.hearing := by
  simp only [State.deliver]; (repeat' split) <;> simp
@[simp] theorem State.deliver_loader (o : Observation) (s : State) : (s.deliver o).loader = s.loader := by
  simp only [State.deliver]; (repeat' split) <;> simp
@[simp] theorem State.deliver_freeIndex (o : Observation) (s : State) : (s.deliver o).freeIndex = s.freeIndex := by
  simp only [State.deliver]; (repeat' split) <;> simp
@[simp] theorem State.deliver_pending (o : Observation) (s : State) : (s.deliver o).pending = s.pending := by
  simp only [State.deliver]; (repeat' split) <;> simp
@[simp] theorem State.deliver_running (o : Observation) (s : State) : (s.deliver o).running = s.running := by simp [State.running]
@[simp] theorem State.deliver_loaded (o : Observation) (s : State) : (s.deliver o).loaded = s.loaded := by simp [State.loaded]
@[simp] theorem State.deliver_port_busy (o : Observation) (s : State) : (s.deliver o).port.busy = s.port.busy := by
  simp only [State.deliver]; (repeat' split) <;> simp
@[simp] theorem State.deliver_port_frame (o : Observation) (s : State) : (s.deliver o).port.frame = s.port.frame := by
  simp only [State.deliver]; (repeat' split) <;> simp
@[simp] theorem State.deliver_port_cursorTable (o : Observation) (s : State) : (s.deliver o).port.cursorTable = s.port.cursorTable := by
  simp only [State.deliver]; (repeat' split) <;> simp
@[simp] theorem State.deliver_port_cursorIndex (o : Observation) (s : State) : (s.deliver o).port.cursorIndex = s.port.cursorIndex := by
  simp only [State.deliver]; (repeat' split) <;> simp
@[simp] theorem State.deliver_port_holder (o : Observation) (s : State) : (s.deliver o).port.holder = s.port.holder := by
  simp only [State.deliver]; (repeat' split) <;> simp
@[simp] theorem State.deliver_port_fetch (o : Observation) (s : State) : (s.deliver o).port.fetch = s.port.fetch := by
  simp only [State.deliver]; (repeat' split) <;> simp
@[simp] theorem State.deliver_port_hold (o : Observation) (s : State) : (s.deliver o).port.hold = s.port.hold := by
  simp only [State.deliver]; (repeat' split) <;> simp
@[simp] theorem State.deliver_port_listenOnly (o : Observation) (s : State) : (s.deliver o).port.listenOnly = s.port.listenOnly := by
  simp only [State.deliver]; (repeat' split) <;> simp
@[simp] theorem State.deliver_port_mntDo (o : Observation) (s : State) : (s.deliver o).port.mntDo = s.port.mntDo := by
  simp only [State.deliver]; (repeat' split) <;> simp
@[simp] theorem State.admitThenDeliver_resetHeld (o : Observation) (s : State) : (s.admitThenDeliver o).resetHeld = s.resetHeld := by
  simp only [State.admitThenDeliver]; (repeat' split) <;> simp
@[simp] theorem State.admitThenDeliver_now (o : Observation) (s : State) : (s.admitThenDeliver o).now = s.now := by
  simp only [State.admitThenDeliver]; (repeat' split) <;> simp
@[simp] theorem State.admitThenDeliver_intake (o : Observation) (s : State) : (s.admitThenDeliver o).intake = s.intake := by
  simp only [State.admitThenDeliver]; (repeat' split) <;> simp
@[simp] theorem State.admitThenDeliver_hearing (o : Observation) (s : State) : (s.admitThenDeliver o).hearing = s.hearing := by
  simp only [State.admitThenDeliver]; (repeat' split) <;> simp
@[simp] theorem State.admitThenDeliver_loader (o : Observation) (s : State) : (s.admitThenDeliver o).loader = s.loader := by
  simp only [State.admitThenDeliver]; (repeat' split) <;> simp
@[simp] theorem State.admitThenDeliver_freeIndex (o : Observation) (s : State) : (s.admitThenDeliver o).freeIndex = s.freeIndex := by
  simp only [State.admitThenDeliver]; (repeat' split) <;> simp
@[simp] theorem State.admitThenDeliver_pending (o : Observation) (s : State) : (s.admitThenDeliver o).pending = s.pending := by
  simp only [State.admitThenDeliver]; (repeat' split) <;> simp
@[simp] theorem State.admitThenDeliver_running (o : Observation) (s : State) : (s.admitThenDeliver o).running = s.running := by simp [State.running]
@[simp] theorem State.admitThenDeliver_loaded (o : Observation) (s : State) : (s.admitThenDeliver o).loaded = s.loaded := by simp [State.loaded]
@[simp] theorem State.admitThenDeliver_port_busy (o : Observation) (s : State) : (s.admitThenDeliver o).port.busy = s.port.busy := by
  simp only [State.admitThenDeliver]; (repeat' split) <;> simp
@[simp] theorem State.admitThenDeliver_port_frame (o : Observation) (s : State) : (s.admitThenDeliver o).port.frame = s.port.frame := by
  simp only [State.admitThenDeliver]; (repeat' split) <;> simp
@[simp] theorem State.admitThenDeliver_port_cursorTable (o : Observation) (s : State) : (s.admitThenDeliver o).port.cursorTable = s.port.cursorTable := by
  simp only [State.admitThenDeliver]; (repeat' split) <;> simp
@[simp] theorem State.admitThenDeliver_port_cursorIndex (o : Observation) (s : State) : (s.admitThenDeliver o).port.cursorIndex = s.port.cursorIndex := by
  simp only [State.admitThenDeliver]; (repeat' split) <;> simp
@[simp] theorem State.admitThenDeliver_port_holder (o : Observation) (s : State) : (s.admitThenDeliver o).port.holder = s.port.holder := by
  simp only [State.admitThenDeliver]; (repeat' split) <;> simp
@[simp] theorem State.admitThenDeliver_port_fetch (o : Observation) (s : State) : (s.admitThenDeliver o).port.fetch = s.port.fetch := by
  simp only [State.admitThenDeliver]; (repeat' split) <;> simp
@[simp] theorem State.admitThenDeliver_port_hold (o : Observation) (s : State) : (s.admitThenDeliver o).port.hold = s.port.hold := by
  simp only [State.admitThenDeliver]; (repeat' split) <;> simp
@[simp] theorem State.admitThenDeliver_port_listenOnly (o : Observation) (s : State) : (s.admitThenDeliver o).port.listenOnly = s.port.listenOnly := by
  simp only [State.admitThenDeliver]; (repeat' split) <;> simp
@[simp] theorem State.admitThenDeliver_port_mntDo (o : Observation) (s : State) : (s.admitThenDeliver o).port.mntDo = s.port.mntDo := by
  simp only [State.admitThenDeliver]; (repeat' split) <;> simp
@[simp] theorem State.setLock_resetHeld (p : Fin 8) (l : Option PathLock) (s : State) : (s.setLock p l).resetHeld = s.resetHeld := by
  simp [State.setLock]
@[simp] theorem State.setLock_now (p : Fin 8) (l : Option PathLock) (s : State) : (s.setLock p l).now = s.now := by
  simp [State.setLock]
@[simp] theorem State.setLock_roster (p : Fin 8) (l : Option PathLock) (s : State) : (s.setLock p l).roster = s.roster := by
  simp [State.setLock]
@[simp] theorem State.setLock_strays (p : Fin 8) (l : Option PathLock) (s : State) : (s.setLock p l).strays = s.strays := by
  simp [State.setLock]
@[simp] theorem State.setLock_hearing (p : Fin 8) (l : Option PathLock) (s : State) : (s.setLock p l).hearing = s.hearing := by
  simp [State.setLock]
@[simp] theorem State.setLock_nego (p : Fin 8) (l : Option PathLock) (s : State) : (s.setLock p l).nego = s.nego := by
  simp [State.setLock]
@[simp] theorem State.setLock_steer (p : Fin 8) (l : Option PathLock) (s : State) : (s.setLock p l).steer = s.steer := by
  simp [State.setLock]
@[simp] theorem State.setLock_link (p : Fin 8) (l : Option PathLock) (s : State) : (s.setLock p l).link = s.link := by
  simp [State.setLock]
@[simp] theorem State.setLock_loader (p : Fin 8) (l : Option PathLock) (s : State) : (s.setLock p l).loader = s.loader := by
  simp [State.setLock]
@[simp] theorem State.setLock_port (p : Fin 8) (l : Option PathLock) (s : State) : (s.setLock p l).port = s.port := by
  simp [State.setLock]
@[simp] theorem State.setLock_freeIndex (p : Fin 8) (l : Option PathLock) (s : State) : (s.setLock p l).freeIndex = s.freeIndex := by
  simp [State.setLock]
@[simp] theorem State.setLock_pending (p : Fin 8) (l : Option PathLock) (s : State) : (s.setLock p l).pending = s.pending := by
  simp [State.setLock]
@[simp] theorem State.setLock_running (p : Fin 8) (l : Option PathLock) (s : State) : (s.setLock p l).running = s.running := by simp [State.running]
@[simp] theorem State.setLock_loaded (p : Fin 8) (l : Option PathLock) (s : State) : (s.setLock p l).loaded = s.loaded := by simp [State.loaded]
@[simp] theorem State.expect_resetHeld (n : Byte) (s : State) : (s.expect n).resetHeld = s.resetHeld := by
  simp [State.expect]
@[simp] theorem State.expect_now (n : Byte) (s : State) : (s.expect n).now = s.now := by
  simp [State.expect]
@[simp] theorem State.expect_roster (n : Byte) (s : State) : (s.expect n).roster = s.roster := by
  simp [State.expect]
@[simp] theorem State.expect_strays (n : Byte) (s : State) : (s.expect n).strays = s.strays := by
  simp [State.expect]
@[simp] theorem State.expect_hearing (n : Byte) (s : State) : (s.expect n).hearing = s.hearing := by
  simp [State.expect]
@[simp] theorem State.expect_nego (n : Byte) (s : State) : (s.expect n).nego = s.nego := by
  simp [State.expect]
@[simp] theorem State.expect_steer (n : Byte) (s : State) : (s.expect n).steer = s.steer := by
  simp [State.expect]
@[simp] theorem State.expect_link (n : Byte) (s : State) : (s.expect n).link = s.link := by
  simp [State.expect]
@[simp] theorem State.expect_loader (n : Byte) (s : State) : (s.expect n).loader = s.loader := by
  simp [State.expect]
@[simp] theorem State.expect_port (n : Byte) (s : State) : (s.expect n).port = s.port := by
  simp [State.expect]
@[simp] theorem State.expect_freeIndex (n : Byte) (s : State) : (s.expect n).freeIndex = s.freeIndex := by
  simp [State.expect]
@[simp] theorem State.expect_pending (n : Byte) (s : State) : (s.expect n).pending = s.pending := by
  simp [State.expect]
@[simp] theorem State.expect_running (n : Byte) (s : State) : (s.expect n).running = s.running := by simp [State.running]
@[simp] theorem State.expect_loaded (n : Byte) (s : State) : (s.expect n).loaded = s.loaded := by simp [State.loaded]
@[simp] theorem State.reportGap_resetHeld (s : State) : (s.reportGap).resetHeld = s.resetHeld := by
  simp [State.reportGap]
@[simp] theorem State.reportGap_now (s : State) : (s.reportGap).now = s.now := by
  simp [State.reportGap]
@[simp] theorem State.reportGap_roster (s : State) : (s.reportGap).roster = s.roster := by
  simp [State.reportGap]
@[simp] theorem State.reportGap_strays (s : State) : (s.reportGap).strays = s.strays := by
  simp [State.reportGap]
@[simp] theorem State.reportGap_hearing (s : State) : (s.reportGap).hearing = s.hearing := by
  simp [State.reportGap]
@[simp] theorem State.reportGap_nego (s : State) : (s.reportGap).nego = s.nego := by
  simp [State.reportGap]
@[simp] theorem State.reportGap_steer (s : State) : (s.reportGap).steer = s.steer := by
  simp [State.reportGap]
@[simp] theorem State.reportGap_link (s : State) : (s.reportGap).link = s.link := by
  simp [State.reportGap]
@[simp] theorem State.reportGap_loader (s : State) : (s.reportGap).loader = s.loader := by
  simp [State.reportGap]
@[simp] theorem State.reportGap_freeIndex (s : State) : (s.reportGap).freeIndex = s.freeIndex := by
  simp [State.reportGap]
@[simp] theorem State.reportGap_pending (s : State) : (s.reportGap).pending = s.pending := by
  simp [State.reportGap]
@[simp] theorem State.reportGap_running (s : State) : (s.reportGap).running = s.running := by simp [State.running]
@[simp] theorem State.reportGap_loaded (s : State) : (s.reportGap).loaded = s.loaded := by simp [State.loaded]
@[simp] theorem State.reportGap_port_busy (s : State) : (s.reportGap).port.busy = s.port.busy := by
  simp [State.reportGap]
@[simp] theorem State.reportGap_port_frame (s : State) : (s.reportGap).port.frame = s.port.frame := by
  simp [State.reportGap]
@[simp] theorem State.reportGap_port_cursorTable (s : State) : (s.reportGap).port.cursorTable = s.port.cursorTable := by
  simp [State.reportGap]
@[simp] theorem State.reportGap_port_cursorIndex (s : State) : (s.reportGap).port.cursorIndex = s.port.cursorIndex := by
  simp [State.reportGap]
@[simp] theorem State.reportGap_port_holder (s : State) : (s.reportGap).port.holder = s.port.holder := by
  simp [State.reportGap]
@[simp] theorem State.reportGap_port_fetch (s : State) : (s.reportGap).port.fetch = s.port.fetch := by
  simp [State.reportGap]
@[simp] theorem State.reportGap_port_hold (s : State) : (s.reportGap).port.hold = s.port.hold := by
  simp [State.reportGap]
@[simp] theorem State.reportGap_port_listenOnly (s : State) : (s.reportGap).port.listenOnly = s.port.listenOnly := by
  simp [State.reportGap]
@[simp] theorem State.reportGap_port_mntDo (s : State) : (s.reportGap).port.mntDo = s.port.mntDo := by
  simp [State.reportGap]
@[simp] theorem State.resendAsk_resetHeld (p : Fin 4) (d : Departure) (s : State) : (s.resendAsk p d).resetHeld = s.resetHeld := by
  simp [State.resendAsk]
@[simp] theorem State.resendAsk_now (p : Fin 4) (d : Departure) (s : State) : (s.resendAsk p d).now = s.now := by
  simp [State.resendAsk]
@[simp] theorem State.resendAsk_intake (p : Fin 4) (d : Departure) (s : State) : (s.resendAsk p d).intake = s.intake := by
  simp [State.resendAsk]
@[simp] theorem State.resendAsk_roster (p : Fin 4) (d : Departure) (s : State) : (s.resendAsk p d).roster = s.roster := by
  simp [State.resendAsk]
@[simp] theorem State.resendAsk_strays (p : Fin 4) (d : Departure) (s : State) : (s.resendAsk p d).strays = s.strays := by
  simp [State.resendAsk]
@[simp] theorem State.resendAsk_hearing (p : Fin 4) (d : Departure) (s : State) : (s.resendAsk p d).hearing = s.hearing := by
  simp [State.resendAsk]
@[simp] theorem State.resendAsk_steer (p : Fin 4) (d : Departure) (s : State) : (s.resendAsk p d).steer = s.steer := by
  simp [State.resendAsk]
@[simp] theorem State.resendAsk_loader (p : Fin 4) (d : Departure) (s : State) : (s.resendAsk p d).loader = s.loader := by
  simp [State.resendAsk]
@[simp] theorem State.resendAsk_freeIndex (p : Fin 4) (d : Departure) (s : State) : (s.resendAsk p d).freeIndex = s.freeIndex := by
  simp [State.resendAsk]
@[simp] theorem State.resendAsk_pending (p : Fin 4) (d : Departure) (s : State) : (s.resendAsk p d).pending = s.pending := by
  simp [State.resendAsk]
@[simp] theorem State.resendAsk_running (p : Fin 4) (d : Departure) (s : State) : (s.resendAsk p d).running = s.running := by simp [State.running]
@[simp] theorem State.resendAsk_loaded (p : Fin 4) (d : Departure) (s : State) : (s.resendAsk p d).loaded = s.loaded := by simp [State.loaded]
@[simp] theorem State.resendAsk_port_busy (p : Fin 4) (d : Departure) (s : State) : (s.resendAsk p d).port.busy = s.port.busy := by
  simp [State.resendAsk]
@[simp] theorem State.resendAsk_port_frame (p : Fin 4) (d : Departure) (s : State) : (s.resendAsk p d).port.frame = s.port.frame := by
  simp [State.resendAsk]
@[simp] theorem State.resendAsk_port_cursorTable (p : Fin 4) (d : Departure) (s : State) : (s.resendAsk p d).port.cursorTable = s.port.cursorTable := by
  simp [State.resendAsk]
@[simp] theorem State.resendAsk_port_cursorIndex (p : Fin 4) (d : Departure) (s : State) : (s.resendAsk p d).port.cursorIndex = s.port.cursorIndex := by
  simp [State.resendAsk]
@[simp] theorem State.resendAsk_port_holder (p : Fin 4) (d : Departure) (s : State) : (s.resendAsk p d).port.holder = s.port.holder := by
  simp [State.resendAsk]
@[simp] theorem State.resendAsk_port_fetch (p : Fin 4) (d : Departure) (s : State) : (s.resendAsk p d).port.fetch = s.port.fetch := by
  simp [State.resendAsk]
@[simp] theorem State.resendAsk_port_hold (p : Fin 4) (d : Departure) (s : State) : (s.resendAsk p d).port.hold = s.port.hold := by
  simp [State.resendAsk]
@[simp] theorem State.resendAsk_port_listenOnly (p : Fin 4) (d : Departure) (s : State) : (s.resendAsk p d).port.listenOnly = s.port.listenOnly := by
  simp [State.resendAsk]
@[simp] theorem State.resendAsk_port_mntDo (p : Fin 4) (d : Departure) (s : State) : (s.resendAsk p d).port.mntDo = s.port.mntDo := by
  simp [State.resendAsk]
@[simp] theorem State.askTimesOut_resetHeld (d : Departure) (s : State) : (s.askTimesOut d).resetHeld = s.resetHeld := by
  simp [State.askTimesOut]
@[simp] theorem State.askTimesOut_now (d : Departure) (s : State) : (s.askTimesOut d).now = s.now := by
  simp [State.askTimesOut]
@[simp] theorem State.askTimesOut_intake (d : Departure) (s : State) : (s.askTimesOut d).intake = s.intake := by
  simp [State.askTimesOut]
@[simp] theorem State.askTimesOut_strays (d : Departure) (s : State) : (s.askTimesOut d).strays = s.strays := by
  simp [State.askTimesOut]
@[simp] theorem State.askTimesOut_hearing (d : Departure) (s : State) : (s.askTimesOut d).hearing = s.hearing := by
  simp [State.askTimesOut]
@[simp] theorem State.askTimesOut_loader (d : Departure) (s : State) : (s.askTimesOut d).loader = s.loader := by
  simp [State.askTimesOut]
@[simp] theorem State.askTimesOut_freeIndex (d : Departure) (s : State) : (s.askTimesOut d).freeIndex = s.freeIndex := by
  simp [State.askTimesOut]
@[simp] theorem State.askTimesOut_pending (d : Departure) (s : State) : (s.askTimesOut d).pending = s.pending := by
  simp [State.askTimesOut]
@[simp] theorem State.askTimesOut_running (d : Departure) (s : State) : (s.askTimesOut d).running = s.running := by simp [State.running]
@[simp] theorem State.askTimesOut_loaded (d : Departure) (s : State) : (s.askTimesOut d).loaded = s.loaded := by simp [State.loaded]
@[simp] theorem State.askTimesOut_port_busy (d : Departure) (s : State) : (s.askTimesOut d).port.busy = s.port.busy := by
  simp [State.askTimesOut]
@[simp] theorem State.askTimesOut_port_frame (d : Departure) (s : State) : (s.askTimesOut d).port.frame = s.port.frame := by
  simp [State.askTimesOut]
@[simp] theorem State.askTimesOut_port_cursorTable (d : Departure) (s : State) : (s.askTimesOut d).port.cursorTable = s.port.cursorTable := by
  simp [State.askTimesOut]
@[simp] theorem State.askTimesOut_port_cursorIndex (d : Departure) (s : State) : (s.askTimesOut d).port.cursorIndex = s.port.cursorIndex := by
  simp [State.askTimesOut]
@[simp] theorem State.askTimesOut_port_holder (d : Departure) (s : State) : (s.askTimesOut d).port.holder = s.port.holder := by
  simp [State.askTimesOut]
@[simp] theorem State.askTimesOut_port_fetch (d : Departure) (s : State) : (s.askTimesOut d).port.fetch = s.port.fetch := by
  simp [State.askTimesOut]
@[simp] theorem State.askTimesOut_port_hold (d : Departure) (s : State) : (s.askTimesOut d).port.hold = s.port.hold := by
  simp [State.askTimesOut]
@[simp] theorem State.askTimesOut_port_listenOnly (d : Departure) (s : State) : (s.askTimesOut d).port.listenOnly = s.port.listenOnly := by
  simp [State.askTimesOut]
@[simp] theorem State.askTimesOut_port_mntDo (d : Departure) (s : State) : (s.askTimesOut d).port.mntDo = s.port.mntDo := by
  simp [State.askTimesOut]
@[simp] theorem State.dwellExpires_resetHeld (i : Fin 64) (e : RosterEntry) (s : State) : (s.dwellExpires i e).resetHeld = s.resetHeld := by
  simp only [State.dwellExpires]; (repeat' split) <;> simp
@[simp] theorem State.dwellExpires_now (i : Fin 64) (e : RosterEntry) (s : State) : (s.dwellExpires i e).now = s.now := by
  simp only [State.dwellExpires]; (repeat' split) <;> simp
@[simp] theorem State.dwellExpires_intake (i : Fin 64) (e : RosterEntry) (s : State) : (s.dwellExpires i e).intake = s.intake := by
  simp only [State.dwellExpires]; (repeat' split) <;> simp
@[simp] theorem State.dwellExpires_strays (i : Fin 64) (e : RosterEntry) (s : State) : (s.dwellExpires i e).strays = s.strays := by
  simp only [State.dwellExpires]; (repeat' split) <;> simp
@[simp] theorem State.dwellExpires_hearing (i : Fin 64) (e : RosterEntry) (s : State) : (s.dwellExpires i e).hearing = s.hearing := by
  simp only [State.dwellExpires]; (repeat' split) <;> simp
@[simp] theorem State.dwellExpires_steer (i : Fin 64) (e : RosterEntry) (s : State) : (s.dwellExpires i e).steer = s.steer := by
  simp only [State.dwellExpires]; (repeat' split) <;> simp
@[simp] theorem State.dwellExpires_loader (i : Fin 64) (e : RosterEntry) (s : State) : (s.dwellExpires i e).loader = s.loader := by
  simp only [State.dwellExpires]; (repeat' split) <;> simp
@[simp] theorem State.dwellExpires_freeIndex (i : Fin 64) (e : RosterEntry) (s : State) : (s.dwellExpires i e).freeIndex = s.freeIndex := by
  simp only [State.dwellExpires]; (repeat' split) <;> simp
@[simp] theorem State.dwellExpires_pending (i : Fin 64) (e : RosterEntry) (s : State) : (s.dwellExpires i e).pending = s.pending := by
  simp only [State.dwellExpires]; (repeat' split) <;> simp
@[simp] theorem State.dwellExpires_running (i : Fin 64) (e : RosterEntry) (s : State) : (s.dwellExpires i e).running = s.running := by simp [State.running]
@[simp] theorem State.dwellExpires_loaded (i : Fin 64) (e : RosterEntry) (s : State) : (s.dwellExpires i e).loaded = s.loaded := by simp [State.loaded]
@[simp] theorem State.dwellExpires_port_busy (i : Fin 64) (e : RosterEntry) (s : State) : (s.dwellExpires i e).port.busy = s.port.busy := by
  simp only [State.dwellExpires]; (repeat' split) <;> simp
@[simp] theorem State.dwellExpires_port_frame (i : Fin 64) (e : RosterEntry) (s : State) : (s.dwellExpires i e).port.frame = s.port.frame := by
  simp only [State.dwellExpires]; (repeat' split) <;> simp
@[simp] theorem State.dwellExpires_port_cursorTable (i : Fin 64) (e : RosterEntry) (s : State) : (s.dwellExpires i e).port.cursorTable = s.port.cursorTable := by
  simp only [State.dwellExpires]; (repeat' split) <;> simp
@[simp] theorem State.dwellExpires_port_cursorIndex (i : Fin 64) (e : RosterEntry) (s : State) : (s.dwellExpires i e).port.cursorIndex = s.port.cursorIndex := by
  simp only [State.dwellExpires]; (repeat' split) <;> simp
@[simp] theorem State.dwellExpires_port_holder (i : Fin 64) (e : RosterEntry) (s : State) : (s.dwellExpires i e).port.holder = s.port.holder := by
  simp only [State.dwellExpires]; (repeat' split) <;> simp
@[simp] theorem State.dwellExpires_port_fetch (i : Fin 64) (e : RosterEntry) (s : State) : (s.dwellExpires i e).port.fetch = s.port.fetch := by
  simp only [State.dwellExpires]; (repeat' split) <;> simp
@[simp] theorem State.dwellExpires_port_hold (i : Fin 64) (e : RosterEntry) (s : State) : (s.dwellExpires i e).port.hold = s.port.hold := by
  simp only [State.dwellExpires]; (repeat' split) <;> simp
@[simp] theorem State.dwellExpires_port_listenOnly (i : Fin 64) (e : RosterEntry) (s : State) : (s.dwellExpires i e).port.listenOnly = s.port.listenOnly := by
  simp only [State.dwellExpires]; (repeat' split) <;> simp
@[simp] theorem State.dwellExpires_port_mntDo (i : Fin 64) (e : RosterEntry) (s : State) : (s.dwellExpires i e).port.mntDo = s.port.mntDo := by
  simp only [State.dwellExpires]; (repeat' split) <;> simp
@[simp] theorem State.advanceHearing_resetHeld (s : State) : (s.advanceHearing).resetHeld = s.resetHeld := by
  simp [State.advanceHearing]
@[simp] theorem State.advanceHearing_now (s : State) : (s.advanceHearing).now = s.now := by
  simp [State.advanceHearing]
@[simp] theorem State.advanceHearing_intake (s : State) : (s.advanceHearing).intake = s.intake := by
  simp [State.advanceHearing]
@[simp] theorem State.advanceHearing_roster (s : State) : (s.advanceHearing).roster = s.roster := by
  simp [State.advanceHearing]
@[simp] theorem State.advanceHearing_hearing (s : State) : (s.advanceHearing).hearing = s.hearing := by
  simp [State.advanceHearing]
@[simp] theorem State.advanceHearing_nego (s : State) : (s.advanceHearing).nego = s.nego := by
  simp [State.advanceHearing]
@[simp] theorem State.advanceHearing_steer (s : State) : (s.advanceHearing).steer = s.steer := by
  simp [State.advanceHearing]
@[simp] theorem State.advanceHearing_link (s : State) : (s.advanceHearing).link = s.link := by
  simp [State.advanceHearing]
@[simp] theorem State.advanceHearing_loader (s : State) : (s.advanceHearing).loader = s.loader := by
  simp [State.advanceHearing]
@[simp] theorem State.advanceHearing_port (s : State) : (s.advanceHearing).port = s.port := by
  simp [State.advanceHearing]
@[simp] theorem State.advanceHearing_freeIndex (s : State) : (s.advanceHearing).freeIndex = s.freeIndex := by
  simp [State.advanceHearing]
@[simp] theorem State.advanceHearing_pending (s : State) : (s.advanceHearing).pending = s.pending := by
  simp [State.advanceHearing]
@[simp] theorem State.advanceHearing_running (s : State) : (s.advanceHearing).running = s.running := by simp [State.running]
@[simp] theorem State.advanceHearing_loaded (s : State) : (s.advanceHearing).loaded = s.loaded := by simp [State.loaded]
@[simp] theorem State.acceptTake_resetHeld (p : Fin 4) (d : Departure) (h : Nat) (s : State) : (s.acceptTake p d h).resetHeld = s.resetHeld := by
  simp only [State.acceptTake]; (repeat' split) <;> simp
@[simp] theorem State.acceptTake_now (p : Fin 4) (d : Departure) (h : Nat) (s : State) : (s.acceptTake p d h).now = s.now := by
  simp only [State.acceptTake]; (repeat' split) <;> simp
@[simp] theorem State.acceptTake_intake (p : Fin 4) (d : Departure) (h : Nat) (s : State) : (s.acceptTake p d h).intake = s.intake := by
  simp only [State.acceptTake]; (repeat' split) <;> simp
@[simp] theorem State.acceptTake_strays (p : Fin 4) (d : Departure) (h : Nat) (s : State) : (s.acceptTake p d h).strays = s.strays := by
  simp only [State.acceptTake]; (repeat' split) <;> simp
@[simp] theorem State.acceptTake_loader (p : Fin 4) (d : Departure) (h : Nat) (s : State) : (s.acceptTake p d h).loader = s.loader := by
  simp only [State.acceptTake]; (repeat' split) <;> simp
@[simp] theorem State.acceptTake_freeIndex (p : Fin 4) (d : Departure) (h : Nat) (s : State) : (s.acceptTake p d h).freeIndex = s.freeIndex := by
  simp only [State.acceptTake]; (repeat' split) <;> simp
@[simp] theorem State.acceptTake_pending (p : Fin 4) (d : Departure) (h : Nat) (s : State) : (s.acceptTake p d h).pending = s.pending := by
  simp only [State.acceptTake]; (repeat' split) <;> simp
@[simp] theorem State.acceptTake_running (p : Fin 4) (d : Departure) (h : Nat) (s : State) : (s.acceptTake p d h).running = s.running := by simp [State.running]
@[simp] theorem State.acceptTake_loaded (p : Fin 4) (d : Departure) (h : Nat) (s : State) : (s.acceptTake p d h).loaded = s.loaded := by simp [State.loaded]
@[simp] theorem State.acceptTake_port_busy (p : Fin 4) (d : Departure) (h : Nat) (s : State) : (s.acceptTake p d h).port.busy = s.port.busy := by
  simp only [State.acceptTake]; (repeat' split) <;> simp
@[simp] theorem State.acceptTake_port_frame (p : Fin 4) (d : Departure) (h : Nat) (s : State) : (s.acceptTake p d h).port.frame = s.port.frame := by
  simp only [State.acceptTake]; (repeat' split) <;> simp
@[simp] theorem State.acceptTake_port_cursorTable (p : Fin 4) (d : Departure) (h : Nat) (s : State) : (s.acceptTake p d h).port.cursorTable = s.port.cursorTable := by
  simp only [State.acceptTake]; (repeat' split) <;> simp
@[simp] theorem State.acceptTake_port_cursorIndex (p : Fin 4) (d : Departure) (h : Nat) (s : State) : (s.acceptTake p d h).port.cursorIndex = s.port.cursorIndex := by
  simp only [State.acceptTake]; (repeat' split) <;> simp
@[simp] theorem State.acceptTake_port_holder (p : Fin 4) (d : Departure) (h : Nat) (s : State) : (s.acceptTake p d h).port.holder = s.port.holder := by
  simp only [State.acceptTake]; (repeat' split) <;> simp
@[simp] theorem State.acceptTake_port_fetch (p : Fin 4) (d : Departure) (h : Nat) (s : State) : (s.acceptTake p d h).port.fetch = s.port.fetch := by
  simp only [State.acceptTake]; (repeat' split) <;> simp
@[simp] theorem State.acceptTake_port_hold (p : Fin 4) (d : Departure) (h : Nat) (s : State) : (s.acceptTake p d h).port.hold = s.port.hold := by
  simp only [State.acceptTake]; (repeat' split) <;> simp
@[simp] theorem State.acceptTake_port_listenOnly (p : Fin 4) (d : Departure) (h : Nat) (s : State) : (s.acceptTake p d h).port.listenOnly = s.port.listenOnly := by
  simp only [State.acceptTake]; (repeat' split) <;> simp
@[simp] theorem State.acceptTake_port_mntDo (p : Fin 4) (d : Departure) (h : Nat) (s : State) : (s.acceptTake p d h).port.mntDo = s.port.mntDo := by
  simp only [State.acceptTake]; (repeat' split) <;> simp
@[simp] theorem State.receiveTake_resetHeld (f : LinkFrame) (s : State) : (s.receiveTake f).resetHeld = s.resetHeld := by
  simp only [State.receiveTake]; (repeat' split) <;> simp
@[simp] theorem State.receiveTake_now (f : LinkFrame) (s : State) : (s.receiveTake f).now = s.now := by
  simp only [State.receiveTake]; (repeat' split) <;> simp
@[simp] theorem State.receiveTake_intake (f : LinkFrame) (s : State) : (s.receiveTake f).intake = s.intake := by
  simp only [State.receiveTake]; (repeat' split) <;> simp
@[simp] theorem State.receiveTake_strays (f : LinkFrame) (s : State) : (s.receiveTake f).strays = s.strays := by
  simp only [State.receiveTake]; (repeat' split) <;> simp
@[simp] theorem State.receiveTake_loader (f : LinkFrame) (s : State) : (s.receiveTake f).loader = s.loader := by
  simp only [State.receiveTake]; (repeat' split) <;> simp
@[simp] theorem State.receiveTake_freeIndex (f : LinkFrame) (s : State) : (s.receiveTake f).freeIndex = s.freeIndex := by
  simp only [State.receiveTake]; (repeat' split) <;> simp
@[simp] theorem State.receiveTake_pending (f : LinkFrame) (s : State) : (s.receiveTake f).pending = s.pending := by
  simp only [State.receiveTake]; (repeat' split) <;> simp
@[simp] theorem State.receiveTake_running (f : LinkFrame) (s : State) : (s.receiveTake f).running = s.running := by simp [State.running]
@[simp] theorem State.receiveTake_loaded (f : LinkFrame) (s : State) : (s.receiveTake f).loaded = s.loaded := by simp [State.loaded]
@[simp] theorem State.receiveTake_port_busy (f : LinkFrame) (s : State) : (s.receiveTake f).port.busy = s.port.busy := by
  simp only [State.receiveTake]; (repeat' split) <;> simp
@[simp] theorem State.receiveTake_port_frame (f : LinkFrame) (s : State) : (s.receiveTake f).port.frame = s.port.frame := by
  simp only [State.receiveTake]; (repeat' split) <;> simp
@[simp] theorem State.receiveTake_port_cursorTable (f : LinkFrame) (s : State) : (s.receiveTake f).port.cursorTable = s.port.cursorTable := by
  simp only [State.receiveTake]; (repeat' split) <;> simp
@[simp] theorem State.receiveTake_port_cursorIndex (f : LinkFrame) (s : State) : (s.receiveTake f).port.cursorIndex = s.port.cursorIndex := by
  simp only [State.receiveTake]; (repeat' split) <;> simp
@[simp] theorem State.receiveTake_port_holder (f : LinkFrame) (s : State) : (s.receiveTake f).port.holder = s.port.holder := by
  simp only [State.receiveTake]; (repeat' split) <;> simp
@[simp] theorem State.receiveTake_port_fetch (f : LinkFrame) (s : State) : (s.receiveTake f).port.fetch = s.port.fetch := by
  simp only [State.receiveTake]; (repeat' split) <;> simp
@[simp] theorem State.receiveTake_port_hold (f : LinkFrame) (s : State) : (s.receiveTake f).port.hold = s.port.hold := by
  simp only [State.receiveTake]; (repeat' split) <;> simp
@[simp] theorem State.receiveTake_port_listenOnly (f : LinkFrame) (s : State) : (s.receiveTake f).port.listenOnly = s.port.listenOnly := by
  simp only [State.receiveTake]; (repeat' split) <;> simp
@[simp] theorem State.receiveTake_port_mntDo (f : LinkFrame) (s : State) : (s.receiveTake f).port.mntDo = s.port.mntDo := by
  simp only [State.receiveTake]; (repeat' split) <;> simp
@[simp] theorem State.receiveDecline_resetHeld (f : LinkFrame) (s : State) : (s.receiveDecline f).resetHeld = s.resetHeld := by
  simp only [State.receiveDecline]; (repeat' split) <;> simp
@[simp] theorem State.receiveDecline_now (f : LinkFrame) (s : State) : (s.receiveDecline f).now = s.now := by
  simp only [State.receiveDecline]; (repeat' split) <;> simp
@[simp] theorem State.receiveDecline_intake (f : LinkFrame) (s : State) : (s.receiveDecline f).intake = s.intake := by
  simp only [State.receiveDecline]; (repeat' split) <;> simp
@[simp] theorem State.receiveDecline_strays (f : LinkFrame) (s : State) : (s.receiveDecline f).strays = s.strays := by
  simp only [State.receiveDecline]; (repeat' split) <;> simp
@[simp] theorem State.receiveDecline_hearing (f : LinkFrame) (s : State) : (s.receiveDecline f).hearing = s.hearing := by
  simp only [State.receiveDecline]; (repeat' split) <;> simp
@[simp] theorem State.receiveDecline_loader (f : LinkFrame) (s : State) : (s.receiveDecline f).loader = s.loader := by
  simp only [State.receiveDecline]; (repeat' split) <;> simp
@[simp] theorem State.receiveDecline_freeIndex (f : LinkFrame) (s : State) : (s.receiveDecline f).freeIndex = s.freeIndex := by
  simp only [State.receiveDecline]; (repeat' split) <;> simp
@[simp] theorem State.receiveDecline_pending (f : LinkFrame) (s : State) : (s.receiveDecline f).pending = s.pending := by
  simp only [State.receiveDecline]; (repeat' split) <;> simp
@[simp] theorem State.receiveDecline_running (f : LinkFrame) (s : State) : (s.receiveDecline f).running = s.running := by simp [State.running]
@[simp] theorem State.receiveDecline_loaded (f : LinkFrame) (s : State) : (s.receiveDecline f).loaded = s.loaded := by simp [State.loaded]
@[simp] theorem State.receiveDecline_port_busy (f : LinkFrame) (s : State) : (s.receiveDecline f).port.busy = s.port.busy := by
  simp only [State.receiveDecline]; (repeat' split) <;> simp
@[simp] theorem State.receiveDecline_port_frame (f : LinkFrame) (s : State) : (s.receiveDecline f).port.frame = s.port.frame := by
  simp only [State.receiveDecline]; (repeat' split) <;> simp
@[simp] theorem State.receiveDecline_port_cursorTable (f : LinkFrame) (s : State) : (s.receiveDecline f).port.cursorTable = s.port.cursorTable := by
  simp only [State.receiveDecline]; (repeat' split) <;> simp
@[simp] theorem State.receiveDecline_port_cursorIndex (f : LinkFrame) (s : State) : (s.receiveDecline f).port.cursorIndex = s.port.cursorIndex := by
  simp only [State.receiveDecline]; (repeat' split) <;> simp
@[simp] theorem State.receiveDecline_port_holder (f : LinkFrame) (s : State) : (s.receiveDecline f).port.holder = s.port.holder := by
  simp only [State.receiveDecline]; (repeat' split) <;> simp
@[simp] theorem State.receiveDecline_port_fetch (f : LinkFrame) (s : State) : (s.receiveDecline f).port.fetch = s.port.fetch := by
  simp only [State.receiveDecline]; (repeat' split) <;> simp
@[simp] theorem State.receiveDecline_port_hold (f : LinkFrame) (s : State) : (s.receiveDecline f).port.hold = s.port.hold := by
  simp only [State.receiveDecline]; (repeat' split) <;> simp
@[simp] theorem State.receiveDecline_port_listenOnly (f : LinkFrame) (s : State) : (s.receiveDecline f).port.listenOnly = s.port.listenOnly := by
  simp only [State.receiveDecline]; (repeat' split) <;> simp
@[simp] theorem State.receiveDecline_port_mntDo (f : LinkFrame) (s : State) : (s.receiveDecline f).port.mntDo = s.port.mntDo := by
  simp only [State.receiveDecline]; (repeat' split) <;> simp
@[simp] theorem State.offerTake_resetHeld (a : Byte) (r : Radio) (q : Byte) (s : State) : (s.offerTake a r q).resetHeld = s.resetHeld := by
  simp [State.offerTake]
@[simp] theorem State.offerTake_now (a : Byte) (r : Radio) (q : Byte) (s : State) : (s.offerTake a r q).now = s.now := by
  simp [State.offerTake]
@[simp] theorem State.offerTake_intake (a : Byte) (r : Radio) (q : Byte) (s : State) : (s.offerTake a r q).intake = s.intake := by
  simp [State.offerTake]
@[simp] theorem State.offerTake_roster (a : Byte) (r : Radio) (q : Byte) (s : State) : (s.offerTake a r q).roster = s.roster := by
  simp [State.offerTake]
@[simp] theorem State.offerTake_strays (a : Byte) (r : Radio) (q : Byte) (s : State) : (s.offerTake a r q).strays = s.strays := by
  simp [State.offerTake]
@[simp] theorem State.offerTake_hearing (a : Byte) (r : Radio) (q : Byte) (s : State) : (s.offerTake a r q).hearing = s.hearing := by
  simp [State.offerTake]
@[simp] theorem State.offerTake_nego (a : Byte) (r : Radio) (q : Byte) (s : State) : (s.offerTake a r q).nego = s.nego := by
  simp [State.offerTake]
@[simp] theorem State.offerTake_steer (a : Byte) (r : Radio) (q : Byte) (s : State) : (s.offerTake a r q).steer = s.steer := by
  simp [State.offerTake]
@[simp] theorem State.offerTake_loader (a : Byte) (r : Radio) (q : Byte) (s : State) : (s.offerTake a r q).loader = s.loader := by
  simp [State.offerTake]
@[simp] theorem State.offerTake_freeIndex (a : Byte) (r : Radio) (q : Byte) (s : State) : (s.offerTake a r q).freeIndex = s.freeIndex := by
  simp [State.offerTake]
@[simp] theorem State.offerTake_pending (a : Byte) (r : Radio) (q : Byte) (s : State) : (s.offerTake a r q).pending = s.pending := by
  simp [State.offerTake]
@[simp] theorem State.offerTake_running (a : Byte) (r : Radio) (q : Byte) (s : State) : (s.offerTake a r q).running = s.running := by simp [State.running]
@[simp] theorem State.offerTake_loaded (a : Byte) (r : Radio) (q : Byte) (s : State) : (s.offerTake a r q).loaded = s.loaded := by simp [State.loaded]
@[simp] theorem State.offerTake_port_busy (a : Byte) (r : Radio) (q : Byte) (s : State) : (s.offerTake a r q).port.busy = s.port.busy := by
  simp [State.offerTake]
@[simp] theorem State.offerTake_port_frame (a : Byte) (r : Radio) (q : Byte) (s : State) : (s.offerTake a r q).port.frame = s.port.frame := by
  simp [State.offerTake]
@[simp] theorem State.offerTake_port_cursorTable (a : Byte) (r : Radio) (q : Byte) (s : State) : (s.offerTake a r q).port.cursorTable = s.port.cursorTable := by
  simp [State.offerTake]
@[simp] theorem State.offerTake_port_cursorIndex (a : Byte) (r : Radio) (q : Byte) (s : State) : (s.offerTake a r q).port.cursorIndex = s.port.cursorIndex := by
  simp [State.offerTake]
@[simp] theorem State.offerTake_port_holder (a : Byte) (r : Radio) (q : Byte) (s : State) : (s.offerTake a r q).port.holder = s.port.holder := by
  simp [State.offerTake]
@[simp] theorem State.offerTake_port_fetch (a : Byte) (r : Radio) (q : Byte) (s : State) : (s.offerTake a r q).port.fetch = s.port.fetch := by
  simp [State.offerTake]
@[simp] theorem State.offerTake_port_hold (a : Byte) (r : Radio) (q : Byte) (s : State) : (s.offerTake a r q).port.hold = s.port.hold := by
  simp [State.offerTake]
@[simp] theorem State.offerTake_port_listenOnly (a : Byte) (r : Radio) (q : Byte) (s : State) : (s.offerTake a r q).port.listenOnly = s.port.listenOnly := by
  simp [State.offerTake]
@[simp] theorem State.offerTake_port_mntDo (a : Byte) (r : Radio) (q : Byte) (s : State) : (s.offerTake a r q).port.mntDo = s.port.mntDo := by
  simp [State.offerTake]
@[simp] theorem State.receiveAsk_resetHeld (f : LinkFrame) (s : State) : (s.receiveAsk f).resetHeld = s.resetHeld := by
  simp only [State.receiveAsk]; (repeat' split) <;> simp
@[simp] theorem State.receiveAsk_now (f : LinkFrame) (s : State) : (s.receiveAsk f).now = s.now := by
  simp only [State.receiveAsk]; (repeat' split) <;> simp
@[simp] theorem State.receiveAsk_intake (f : LinkFrame) (s : State) : (s.receiveAsk f).intake = s.intake := by
  simp only [State.receiveAsk]; (repeat' split) <;> simp
@[simp] theorem State.receiveAsk_hearing (f : LinkFrame) (s : State) : (s.receiveAsk f).hearing = s.hearing := by
  simp only [State.receiveAsk]; (repeat' split) <;> simp
@[simp] theorem State.receiveAsk_nego (f : LinkFrame) (s : State) : (s.receiveAsk f).nego = s.nego := by
  simp only [State.receiveAsk]; (repeat' split) <;> simp
@[simp] theorem State.receiveAsk_loader (f : LinkFrame) (s : State) : (s.receiveAsk f).loader = s.loader := by
  simp only [State.receiveAsk]; (repeat' split) <;> simp
@[simp] theorem State.receiveAsk_freeIndex (f : LinkFrame) (s : State) : (s.receiveAsk f).freeIndex = s.freeIndex := by
  simp only [State.receiveAsk]; (repeat' split) <;> simp
@[simp] theorem State.receiveAsk_pending (f : LinkFrame) (s : State) : (s.receiveAsk f).pending = s.pending := by
  simp only [State.receiveAsk]; (repeat' split) <;> simp
@[simp] theorem State.receiveAsk_running (f : LinkFrame) (s : State) : (s.receiveAsk f).running = s.running := by simp [State.running]
@[simp] theorem State.receiveAsk_loaded (f : LinkFrame) (s : State) : (s.receiveAsk f).loaded = s.loaded := by simp [State.loaded]
@[simp] theorem State.receiveAsk_port_busy (f : LinkFrame) (s : State) : (s.receiveAsk f).port.busy = s.port.busy := by
  simp only [State.receiveAsk]; (repeat' split) <;> simp
@[simp] theorem State.receiveAsk_port_frame (f : LinkFrame) (s : State) : (s.receiveAsk f).port.frame = s.port.frame := by
  simp only [State.receiveAsk]; (repeat' split) <;> simp
@[simp] theorem State.receiveAsk_port_cursorTable (f : LinkFrame) (s : State) : (s.receiveAsk f).port.cursorTable = s.port.cursorTable := by
  simp only [State.receiveAsk]; (repeat' split) <;> simp
@[simp] theorem State.receiveAsk_port_cursorIndex (f : LinkFrame) (s : State) : (s.receiveAsk f).port.cursorIndex = s.port.cursorIndex := by
  simp only [State.receiveAsk]; (repeat' split) <;> simp
@[simp] theorem State.receiveAsk_port_holder (f : LinkFrame) (s : State) : (s.receiveAsk f).port.holder = s.port.holder := by
  simp only [State.receiveAsk]; (repeat' split) <;> simp
@[simp] theorem State.receiveAsk_port_fetch (f : LinkFrame) (s : State) : (s.receiveAsk f).port.fetch = s.port.fetch := by
  simp only [State.receiveAsk]; (repeat' split) <;> simp
@[simp] theorem State.receiveAsk_port_hold (f : LinkFrame) (s : State) : (s.receiveAsk f).port.hold = s.port.hold := by
  simp only [State.receiveAsk]; (repeat' split) <;> simp
@[simp] theorem State.receiveAsk_port_listenOnly (f : LinkFrame) (s : State) : (s.receiveAsk f).port.listenOnly = s.port.listenOnly := by
  simp only [State.receiveAsk]; (repeat' split) <;> simp
@[simp] theorem State.receiveAsk_port_mntDo (f : LinkFrame) (s : State) : (s.receiveAsk f).port.mntDo = s.port.mntDo := by
  simp only [State.receiveAsk]; (repeat' split) <;> simp
@[simp] theorem State.conflict_resetHeld (i : Fin 64) (e : RosterEntry) (b : Byte) (c : Option (BitVec 4)) (s : State) : (s.conflict i e b c).resetHeld = s.resetHeld := by
  simp only [State.conflict]; (repeat' split) <;> simp
@[simp] theorem State.conflict_now (i : Fin 64) (e : RosterEntry) (b : Byte) (c : Option (BitVec 4)) (s : State) : (s.conflict i e b c).now = s.now := by
  simp only [State.conflict]; (repeat' split) <;> simp
@[simp] theorem State.conflict_intake (i : Fin 64) (e : RosterEntry) (b : Byte) (c : Option (BitVec 4)) (s : State) : (s.conflict i e b c).intake = s.intake := by
  simp only [State.conflict]; (repeat' split) <;> simp
@[simp] theorem State.conflict_strays (i : Fin 64) (e : RosterEntry) (b : Byte) (c : Option (BitVec 4)) (s : State) : (s.conflict i e b c).strays = s.strays := by
  simp only [State.conflict]; (repeat' split) <;> simp
@[simp] theorem State.conflict_loader (i : Fin 64) (e : RosterEntry) (b : Byte) (c : Option (BitVec 4)) (s : State) : (s.conflict i e b c).loader = s.loader := by
  simp only [State.conflict]; (repeat' split) <;> simp
@[simp] theorem State.conflict_freeIndex (i : Fin 64) (e : RosterEntry) (b : Byte) (c : Option (BitVec 4)) (s : State) : (s.conflict i e b c).freeIndex = s.freeIndex := by
  simp only [State.conflict]; (repeat' split) <;> simp
@[simp] theorem State.conflict_pending (i : Fin 64) (e : RosterEntry) (b : Byte) (c : Option (BitVec 4)) (s : State) : (s.conflict i e b c).pending = s.pending := by
  simp only [State.conflict]; (repeat' split) <;> simp
@[simp] theorem State.conflict_running (i : Fin 64) (e : RosterEntry) (b : Byte) (c : Option (BitVec 4)) (s : State) : (s.conflict i e b c).running = s.running := by simp [State.running]
@[simp] theorem State.conflict_loaded (i : Fin 64) (e : RosterEntry) (b : Byte) (c : Option (BitVec 4)) (s : State) : (s.conflict i e b c).loaded = s.loaded := by simp [State.loaded]
@[simp] theorem State.conflict_port_busy (i : Fin 64) (e : RosterEntry) (b : Byte) (c : Option (BitVec 4)) (s : State) : (s.conflict i e b c).port.busy = s.port.busy := by
  simp only [State.conflict]; (repeat' split) <;> simp
@[simp] theorem State.conflict_port_frame (i : Fin 64) (e : RosterEntry) (b : Byte) (c : Option (BitVec 4)) (s : State) : (s.conflict i e b c).port.frame = s.port.frame := by
  simp only [State.conflict]; (repeat' split) <;> simp
@[simp] theorem State.conflict_port_cursorTable (i : Fin 64) (e : RosterEntry) (b : Byte) (c : Option (BitVec 4)) (s : State) : (s.conflict i e b c).port.cursorTable = s.port.cursorTable := by
  simp only [State.conflict]; (repeat' split) <;> simp
@[simp] theorem State.conflict_port_cursorIndex (i : Fin 64) (e : RosterEntry) (b : Byte) (c : Option (BitVec 4)) (s : State) : (s.conflict i e b c).port.cursorIndex = s.port.cursorIndex := by
  simp only [State.conflict]; (repeat' split) <;> simp
@[simp] theorem State.conflict_port_holder (i : Fin 64) (e : RosterEntry) (b : Byte) (c : Option (BitVec 4)) (s : State) : (s.conflict i e b c).port.holder = s.port.holder := by
  simp only [State.conflict]; (repeat' split) <;> simp
@[simp] theorem State.conflict_port_fetch (i : Fin 64) (e : RosterEntry) (b : Byte) (c : Option (BitVec 4)) (s : State) : (s.conflict i e b c).port.fetch = s.port.fetch := by
  simp only [State.conflict]; (repeat' split) <;> simp
@[simp] theorem State.conflict_port_hold (i : Fin 64) (e : RosterEntry) (b : Byte) (c : Option (BitVec 4)) (s : State) : (s.conflict i e b c).port.hold = s.port.hold := by
  simp only [State.conflict]; (repeat' split) <;> simp
@[simp] theorem State.conflict_port_listenOnly (i : Fin 64) (e : RosterEntry) (b : Byte) (c : Option (BitVec 4)) (s : State) : (s.conflict i e b c).port.listenOnly = s.port.listenOnly := by
  simp only [State.conflict]; (repeat' split) <;> simp
@[simp] theorem State.conflict_port_mntDo (i : Fin 64) (e : RosterEntry) (b : Byte) (c : Option (BitVec 4)) (s : State) : (s.conflict i e b c).port.mntDo = s.port.mntDo := by
  simp only [State.conflict]; (repeat' split) <;> simp
@[simp] theorem State.receiveHomed_resetHeld (f : LinkFrame) (s : State) : (s.receiveHomed f).resetHeld = s.resetHeld := by
  simp only [State.receiveHomed]; (repeat' split) <;> simp
@[simp] theorem State.receiveHomed_now (f : LinkFrame) (s : State) : (s.receiveHomed f).now = s.now := by
  simp only [State.receiveHomed]; (repeat' split) <;> simp
@[simp] theorem State.receiveHomed_intake (f : LinkFrame) (s : State) : (s.receiveHomed f).intake = s.intake := by
  simp only [State.receiveHomed]; (repeat' split) <;> simp
@[simp] theorem State.receiveHomed_strays (f : LinkFrame) (s : State) : (s.receiveHomed f).strays = s.strays := by
  simp only [State.receiveHomed]; (repeat' split) <;> simp
@[simp] theorem State.receiveHomed_loader (f : LinkFrame) (s : State) : (s.receiveHomed f).loader = s.loader := by
  simp only [State.receiveHomed]; (repeat' split) <;> simp
@[simp] theorem State.receiveHomed_freeIndex (f : LinkFrame) (s : State) : (s.receiveHomed f).freeIndex = s.freeIndex := by
  simp only [State.receiveHomed]; (repeat' split) <;> simp
@[simp] theorem State.receiveHomed_pending (f : LinkFrame) (s : State) : (s.receiveHomed f).pending = s.pending := by
  simp only [State.receiveHomed]; (repeat' split) <;> simp
@[simp] theorem State.receiveHomed_running (f : LinkFrame) (s : State) : (s.receiveHomed f).running = s.running := by simp [State.running]
@[simp] theorem State.receiveHomed_loaded (f : LinkFrame) (s : State) : (s.receiveHomed f).loaded = s.loaded := by simp [State.loaded]
@[simp] theorem State.receiveHomed_port_busy (f : LinkFrame) (s : State) : (s.receiveHomed f).port.busy = s.port.busy := by
  simp only [State.receiveHomed]; (repeat' split) <;> simp
@[simp] theorem State.receiveHomed_port_frame (f : LinkFrame) (s : State) : (s.receiveHomed f).port.frame = s.port.frame := by
  simp only [State.receiveHomed]; (repeat' split) <;> simp
@[simp] theorem State.receiveHomed_port_cursorTable (f : LinkFrame) (s : State) : (s.receiveHomed f).port.cursorTable = s.port.cursorTable := by
  simp only [State.receiveHomed]; (repeat' split) <;> simp
@[simp] theorem State.receiveHomed_port_cursorIndex (f : LinkFrame) (s : State) : (s.receiveHomed f).port.cursorIndex = s.port.cursorIndex := by
  simp only [State.receiveHomed]; (repeat' split) <;> simp
@[simp] theorem State.receiveHomed_port_holder (f : LinkFrame) (s : State) : (s.receiveHomed f).port.holder = s.port.holder := by
  simp only [State.receiveHomed]; (repeat' split) <;> simp
@[simp] theorem State.receiveHomed_port_fetch (f : LinkFrame) (s : State) : (s.receiveHomed f).port.fetch = s.port.fetch := by
  simp only [State.receiveHomed]; (repeat' split) <;> simp
@[simp] theorem State.receiveHomed_port_hold (f : LinkFrame) (s : State) : (s.receiveHomed f).port.hold = s.port.hold := by
  simp only [State.receiveHomed]; (repeat' split) <;> simp
@[simp] theorem State.receiveHomed_port_listenOnly (f : LinkFrame) (s : State) : (s.receiveHomed f).port.listenOnly = s.port.listenOnly := by
  simp only [State.receiveHomed]; (repeat' split) <;> simp
@[simp] theorem State.receiveHomed_port_mntDo (f : LinkFrame) (s : State) : (s.receiveHomed f).port.mntDo = s.port.mntDo := by
  simp only [State.receiveHomed]; (repeat' split) <;> simp
@[simp] theorem State.hearFrom_resetHeld (n : Fin 8) (s : State) : (s.hearFrom n).resetHeld = s.resetHeld := by
  simp [State.hearFrom]
@[simp] theorem State.hearFrom_now (n : Fin 8) (s : State) : (s.hearFrom n).now = s.now := by
  simp [State.hearFrom]
@[simp] theorem State.hearFrom_intake (n : Fin 8) (s : State) : (s.hearFrom n).intake = s.intake := by
  simp [State.hearFrom]
@[simp] theorem State.hearFrom_roster (n : Fin 8) (s : State) : (s.hearFrom n).roster = s.roster := by
  simp [State.hearFrom]
@[simp] theorem State.hearFrom_strays (n : Fin 8) (s : State) : (s.hearFrom n).strays = s.strays := by
  simp [State.hearFrom]
@[simp] theorem State.hearFrom_nego (n : Fin 8) (s : State) : (s.hearFrom n).nego = s.nego := by
  simp [State.hearFrom]
@[simp] theorem State.hearFrom_steer (n : Fin 8) (s : State) : (s.hearFrom n).steer = s.steer := by
  simp [State.hearFrom]
@[simp] theorem State.hearFrom_link (n : Fin 8) (s : State) : (s.hearFrom n).link = s.link := by
  simp [State.hearFrom]
@[simp] theorem State.hearFrom_loader (n : Fin 8) (s : State) : (s.hearFrom n).loader = s.loader := by
  simp [State.hearFrom]
@[simp] theorem State.hearFrom_port (n : Fin 8) (s : State) : (s.hearFrom n).port = s.port := by
  simp [State.hearFrom]
@[simp] theorem State.hearFrom_freeIndex (n : Fin 8) (s : State) : (s.hearFrom n).freeIndex = s.freeIndex := by
  simp [State.hearFrom]
@[simp] theorem State.hearFrom_pending (n : Fin 8) (s : State) : (s.hearFrom n).pending = s.pending := by
  simp [State.hearFrom]
@[simp] theorem State.hearFrom_running (n : Fin 8) (s : State) : (s.hearFrom n).running = s.running := by simp [State.running]
@[simp] theorem State.hearFrom_loaded (n : Fin 8) (s : State) : (s.hearFrom n).loaded = s.loaded := by simp [State.loaded]
@[simp] theorem State.receiveHeard_resetHeld (n : Fin 8) (a : Bool) (b : List Byte) (s : State) : (s.receiveHeard n a b).resetHeld = s.resetHeld := by
  simp [State.receiveHeard]
@[simp] theorem State.receiveHeard_now (n : Fin 8) (a : Bool) (b : List Byte) (s : State) : (s.receiveHeard n a b).now = s.now := by
  simp [State.receiveHeard]
@[simp] theorem State.receiveHeard_intake (n : Fin 8) (a : Bool) (b : List Byte) (s : State) : (s.receiveHeard n a b).intake = s.intake := by
  simp [State.receiveHeard]
@[simp] theorem State.receiveHeard_strays (n : Fin 8) (a : Bool) (b : List Byte) (s : State) : (s.receiveHeard n a b).strays = s.strays := by
  simp [State.receiveHeard]
@[simp] theorem State.receiveHeard_nego (n : Fin 8) (a : Bool) (b : List Byte) (s : State) : (s.receiveHeard n a b).nego = s.nego := by
  simp [State.receiveHeard]
@[simp] theorem State.receiveHeard_steer (n : Fin 8) (a : Bool) (b : List Byte) (s : State) : (s.receiveHeard n a b).steer = s.steer := by
  simp [State.receiveHeard]
@[simp] theorem State.receiveHeard_link (n : Fin 8) (a : Bool) (b : List Byte) (s : State) : (s.receiveHeard n a b).link = s.link := by
  simp [State.receiveHeard]
@[simp] theorem State.receiveHeard_loader (n : Fin 8) (a : Bool) (b : List Byte) (s : State) : (s.receiveHeard n a b).loader = s.loader := by
  simp [State.receiveHeard]
@[simp] theorem State.receiveHeard_port (n : Fin 8) (a : Bool) (b : List Byte) (s : State) : (s.receiveHeard n a b).port = s.port := by
  simp [State.receiveHeard]
@[simp] theorem State.receiveHeard_freeIndex (n : Fin 8) (a : Bool) (b : List Byte) (s : State) : (s.receiveHeard n a b).freeIndex = s.freeIndex := by
  simp [State.receiveHeard]
@[simp] theorem State.receiveHeard_pending (n : Fin 8) (a : Bool) (b : List Byte) (s : State) : (s.receiveHeard n a b).pending = s.pending := by
  simp [State.receiveHeard]
@[simp] theorem State.receiveHeard_running (n : Fin 8) (a : Bool) (b : List Byte) (s : State) : (s.receiveHeard n a b).running = s.running := by simp [State.running]
@[simp] theorem State.receiveHeard_loaded (n : Fin 8) (a : Bool) (b : List Byte) (s : State) : (s.receiveHeard n a b).loaded = s.loaded := by simp [State.loaded]
@[simp] theorem State.negotiate_resetHeld (f : LinkFrame) (s : State) : (s.negotiate f).resetHeld = s.resetHeld := by
  simp only [State.negotiate]; (repeat' split) <;> simp
@[simp] theorem State.negotiate_now (f : LinkFrame) (s : State) : (s.negotiate f).now = s.now := by
  simp only [State.negotiate]; (repeat' split) <;> simp
@[simp] theorem State.negotiate_intake (f : LinkFrame) (s : State) : (s.negotiate f).intake = s.intake := by
  simp only [State.negotiate]; (repeat' split) <;> simp
@[simp] theorem State.negotiate_loader (f : LinkFrame) (s : State) : (s.negotiate f).loader = s.loader := by
  simp only [State.negotiate]; (repeat' split) <;> simp
@[simp] theorem State.negotiate_freeIndex (f : LinkFrame) (s : State) : (s.negotiate f).freeIndex = s.freeIndex := by
  simp only [State.negotiate]; (repeat' split) <;> simp
@[simp] theorem State.negotiate_pending (f : LinkFrame) (s : State) : (s.negotiate f).pending = s.pending := by
  simp only [State.negotiate]; (repeat' split) <;> simp
@[simp] theorem State.negotiate_running (f : LinkFrame) (s : State) : (s.negotiate f).running = s.running := by simp [State.running]
@[simp] theorem State.negotiate_loaded (f : LinkFrame) (s : State) : (s.negotiate f).loaded = s.loaded := by simp [State.loaded]
@[simp] theorem State.negotiate_port_busy (f : LinkFrame) (s : State) : (s.negotiate f).port.busy = s.port.busy := by
  simp only [State.negotiate]; (repeat' split) <;> simp
@[simp] theorem State.negotiate_port_frame (f : LinkFrame) (s : State) : (s.negotiate f).port.frame = s.port.frame := by
  simp only [State.negotiate]; (repeat' split) <;> simp
@[simp] theorem State.negotiate_port_cursorTable (f : LinkFrame) (s : State) : (s.negotiate f).port.cursorTable = s.port.cursorTable := by
  simp only [State.negotiate]; (repeat' split) <;> simp
@[simp] theorem State.negotiate_port_cursorIndex (f : LinkFrame) (s : State) : (s.negotiate f).port.cursorIndex = s.port.cursorIndex := by
  simp only [State.negotiate]; (repeat' split) <;> simp
@[simp] theorem State.negotiate_port_holder (f : LinkFrame) (s : State) : (s.negotiate f).port.holder = s.port.holder := by
  simp only [State.negotiate]; (repeat' split) <;> simp
@[simp] theorem State.negotiate_port_fetch (f : LinkFrame) (s : State) : (s.negotiate f).port.fetch = s.port.fetch := by
  simp only [State.negotiate]; (repeat' split) <;> simp
@[simp] theorem State.negotiate_port_hold (f : LinkFrame) (s : State) : (s.negotiate f).port.hold = s.port.hold := by
  simp only [State.negotiate]; (repeat' split) <;> simp
@[simp] theorem State.negotiate_port_listenOnly (f : LinkFrame) (s : State) : (s.negotiate f).port.listenOnly = s.port.listenOnly := by
  simp only [State.negotiate]; (repeat' split) <;> simp
@[simp] theorem State.negotiate_port_mntDo (f : LinkFrame) (s : State) : (s.negotiate f).port.mntDo = s.port.mntDo := by
  simp only [State.negotiate]; (repeat' split) <;> simp
@[simp] theorem State.dispatchNeighbour_resetHeld (n : Fin 8) (f : LinkFrame) (s : State) : (s.dispatchNeighbour n f).resetHeld = s.resetHeld := by
  simp only [State.dispatchNeighbour]; (repeat' split) <;> simp
@[simp] theorem State.dispatchNeighbour_now (n : Fin 8) (f : LinkFrame) (s : State) : (s.dispatchNeighbour n f).now = s.now := by
  simp only [State.dispatchNeighbour]; (repeat' split) <;> simp
@[simp] theorem State.dispatchNeighbour_intake (n : Fin 8) (f : LinkFrame) (s : State) : (s.dispatchNeighbour n f).intake = s.intake := by
  simp only [State.dispatchNeighbour]; (repeat' split) <;> simp
@[simp] theorem State.dispatchNeighbour_loader (n : Fin 8) (f : LinkFrame) (s : State) : (s.dispatchNeighbour n f).loader = s.loader := by
  simp only [State.dispatchNeighbour]; (repeat' split) <;> simp
@[simp] theorem State.dispatchNeighbour_freeIndex (n : Fin 8) (f : LinkFrame) (s : State) : (s.dispatchNeighbour n f).freeIndex = s.freeIndex := by
  simp only [State.dispatchNeighbour]; (repeat' split) <;> simp
@[simp] theorem State.dispatchNeighbour_pending (n : Fin 8) (f : LinkFrame) (s : State) : (s.dispatchNeighbour n f).pending = s.pending := by
  simp only [State.dispatchNeighbour]; (repeat' split) <;> simp
@[simp] theorem State.dispatchNeighbour_running (n : Fin 8) (f : LinkFrame) (s : State) : (s.dispatchNeighbour n f).running = s.running := by simp [State.running]
@[simp] theorem State.dispatchNeighbour_loaded (n : Fin 8) (f : LinkFrame) (s : State) : (s.dispatchNeighbour n f).loaded = s.loaded := by simp [State.loaded]
@[simp] theorem State.dispatchNeighbour_port_busy (n : Fin 8) (f : LinkFrame) (s : State) : (s.dispatchNeighbour n f).port.busy = s.port.busy := by
  simp only [State.dispatchNeighbour]; (repeat' split) <;> simp
@[simp] theorem State.dispatchNeighbour_port_frame (n : Fin 8) (f : LinkFrame) (s : State) : (s.dispatchNeighbour n f).port.frame = s.port.frame := by
  simp only [State.dispatchNeighbour]; (repeat' split) <;> simp
@[simp] theorem State.dispatchNeighbour_port_cursorTable (n : Fin 8) (f : LinkFrame) (s : State) : (s.dispatchNeighbour n f).port.cursorTable = s.port.cursorTable := by
  simp only [State.dispatchNeighbour]; (repeat' split) <;> simp
@[simp] theorem State.dispatchNeighbour_port_cursorIndex (n : Fin 8) (f : LinkFrame) (s : State) : (s.dispatchNeighbour n f).port.cursorIndex = s.port.cursorIndex := by
  simp only [State.dispatchNeighbour]; (repeat' split) <;> simp
@[simp] theorem State.dispatchNeighbour_port_holder (n : Fin 8) (f : LinkFrame) (s : State) : (s.dispatchNeighbour n f).port.holder = s.port.holder := by
  simp only [State.dispatchNeighbour]; (repeat' split) <;> simp
@[simp] theorem State.dispatchNeighbour_port_fetch (n : Fin 8) (f : LinkFrame) (s : State) : (s.dispatchNeighbour n f).port.fetch = s.port.fetch := by
  simp only [State.dispatchNeighbour]; (repeat' split) <;> simp
@[simp] theorem State.dispatchNeighbour_port_hold (n : Fin 8) (f : LinkFrame) (s : State) : (s.dispatchNeighbour n f).port.hold = s.port.hold := by
  simp only [State.dispatchNeighbour]; (repeat' split) <;> simp
@[simp] theorem State.dispatchNeighbour_port_listenOnly (n : Fin 8) (f : LinkFrame) (s : State) : (s.dispatchNeighbour n f).port.listenOnly = s.port.listenOnly := by
  simp only [State.dispatchNeighbour]; (repeat' split) <;> simp
@[simp] theorem State.dispatchNeighbour_port_mntDo (n : Fin 8) (f : LinkFrame) (s : State) : (s.dispatchNeighbour n f).port.mntDo = s.port.mntDo := by
  simp only [State.dispatchNeighbour]; (repeat' split) <;> simp
@[simp] theorem State.dispatchStranger_resetHeld (f : LinkFrame) (s : State) : (s.dispatchStranger f).resetHeld = s.resetHeld := by
  simp only [State.dispatchStranger]; (repeat' split) <;> simp
@[simp] theorem State.dispatchStranger_now (f : LinkFrame) (s : State) : (s.dispatchStranger f).now = s.now := by
  simp only [State.dispatchStranger]; (repeat' split) <;> simp
@[simp] theorem State.dispatchStranger_intake (f : LinkFrame) (s : State) : (s.dispatchStranger f).intake = s.intake := by
  simp only [State.dispatchStranger]; (repeat' split) <;> simp
@[simp] theorem State.dispatchStranger_loader (f : LinkFrame) (s : State) : (s.dispatchStranger f).loader = s.loader := by
  simp only [State.dispatchStranger]; (repeat' split) <;> simp
@[simp] theorem State.dispatchStranger_freeIndex (f : LinkFrame) (s : State) : (s.dispatchStranger f).freeIndex = s.freeIndex := by
  simp only [State.dispatchStranger]; (repeat' split) <;> simp
@[simp] theorem State.dispatchStranger_pending (f : LinkFrame) (s : State) : (s.dispatchStranger f).pending = s.pending := by
  simp only [State.dispatchStranger]; (repeat' split) <;> simp
@[simp] theorem State.dispatchStranger_running (f : LinkFrame) (s : State) : (s.dispatchStranger f).running = s.running := by simp [State.running]
@[simp] theorem State.dispatchStranger_loaded (f : LinkFrame) (s : State) : (s.dispatchStranger f).loaded = s.loaded := by simp [State.loaded]
@[simp] theorem State.dispatchStranger_port_busy (f : LinkFrame) (s : State) : (s.dispatchStranger f).port.busy = s.port.busy := by
  simp only [State.dispatchStranger]; (repeat' split) <;> simp
@[simp] theorem State.dispatchStranger_port_frame (f : LinkFrame) (s : State) : (s.dispatchStranger f).port.frame = s.port.frame := by
  simp only [State.dispatchStranger]; (repeat' split) <;> simp
@[simp] theorem State.dispatchStranger_port_cursorTable (f : LinkFrame) (s : State) : (s.dispatchStranger f).port.cursorTable = s.port.cursorTable := by
  simp only [State.dispatchStranger]; (repeat' split) <;> simp
@[simp] theorem State.dispatchStranger_port_cursorIndex (f : LinkFrame) (s : State) : (s.dispatchStranger f).port.cursorIndex = s.port.cursorIndex := by
  simp only [State.dispatchStranger]; (repeat' split) <;> simp
@[simp] theorem State.dispatchStranger_port_holder (f : LinkFrame) (s : State) : (s.dispatchStranger f).port.holder = s.port.holder := by
  simp only [State.dispatchStranger]; (repeat' split) <;> simp
@[simp] theorem State.dispatchStranger_port_fetch (f : LinkFrame) (s : State) : (s.dispatchStranger f).port.fetch = s.port.fetch := by
  simp only [State.dispatchStranger]; (repeat' split) <;> simp
@[simp] theorem State.dispatchStranger_port_hold (f : LinkFrame) (s : State) : (s.dispatchStranger f).port.hold = s.port.hold := by
  simp only [State.dispatchStranger]; (repeat' split) <;> simp
@[simp] theorem State.dispatchStranger_port_listenOnly (f : LinkFrame) (s : State) : (s.dispatchStranger f).port.listenOnly = s.port.listenOnly := by
  simp only [State.dispatchStranger]; (repeat' split) <;> simp
@[simp] theorem State.dispatchStranger_port_mntDo (f : LinkFrame) (s : State) : (s.dispatchStranger f).port.mntDo = s.port.mntDo := by
  simp only [State.dispatchStranger]; (repeat' split) <;> simp
@[simp] theorem State.dispatchFrame_resetHeld (f : LinkFrame) (l : List LinkFrame) (s : State) : (s.dispatchFrame f l).resetHeld = s.resetHeld := by
  simp only [State.dispatchFrame]; (repeat' split) <;> simp
@[simp] theorem State.dispatchFrame_now (f : LinkFrame) (l : List LinkFrame) (s : State) : (s.dispatchFrame f l).now = s.now := by
  simp only [State.dispatchFrame]; (repeat' split) <;> simp
@[simp] theorem State.dispatchFrame_intake (f : LinkFrame) (l : List LinkFrame) (s : State) : (s.dispatchFrame f l).intake = s.intake := by
  simp only [State.dispatchFrame]; (repeat' split) <;> simp
@[simp] theorem State.dispatchFrame_loader (f : LinkFrame) (l : List LinkFrame) (s : State) : (s.dispatchFrame f l).loader = s.loader := by
  simp only [State.dispatchFrame]; (repeat' split) <;> simp
@[simp] theorem State.dispatchFrame_freeIndex (f : LinkFrame) (l : List LinkFrame) (s : State) : (s.dispatchFrame f l).freeIndex = s.freeIndex := by
  simp only [State.dispatchFrame]; (repeat' split) <;> simp
@[simp] theorem State.dispatchFrame_pending (f : LinkFrame) (l : List LinkFrame) (s : State) : (s.dispatchFrame f l).pending = s.pending := by
  simp only [State.dispatchFrame]; (repeat' split) <;> simp
@[simp] theorem State.dispatchFrame_running (f : LinkFrame) (l : List LinkFrame) (s : State) : (s.dispatchFrame f l).running = s.running := by simp [State.running]
@[simp] theorem State.dispatchFrame_loaded (f : LinkFrame) (l : List LinkFrame) (s : State) : (s.dispatchFrame f l).loaded = s.loaded := by simp [State.loaded]
@[simp] theorem State.dispatchFrame_port_busy (f : LinkFrame) (l : List LinkFrame) (s : State) : (s.dispatchFrame f l).port.busy = s.port.busy := by
  simp only [State.dispatchFrame]; (repeat' split) <;> simp
@[simp] theorem State.dispatchFrame_port_frame (f : LinkFrame) (l : List LinkFrame) (s : State) : (s.dispatchFrame f l).port.frame = s.port.frame := by
  simp only [State.dispatchFrame]; (repeat' split) <;> simp
@[simp] theorem State.dispatchFrame_port_cursorTable (f : LinkFrame) (l : List LinkFrame) (s : State) : (s.dispatchFrame f l).port.cursorTable = s.port.cursorTable := by
  simp only [State.dispatchFrame]; (repeat' split) <;> simp
@[simp] theorem State.dispatchFrame_port_cursorIndex (f : LinkFrame) (l : List LinkFrame) (s : State) : (s.dispatchFrame f l).port.cursorIndex = s.port.cursorIndex := by
  simp only [State.dispatchFrame]; (repeat' split) <;> simp
@[simp] theorem State.dispatchFrame_port_holder (f : LinkFrame) (l : List LinkFrame) (s : State) : (s.dispatchFrame f l).port.holder = s.port.holder := by
  simp only [State.dispatchFrame]; (repeat' split) <;> simp
@[simp] theorem State.dispatchFrame_port_fetch (f : LinkFrame) (l : List LinkFrame) (s : State) : (s.dispatchFrame f l).port.fetch = s.port.fetch := by
  simp only [State.dispatchFrame]; (repeat' split) <;> simp
@[simp] theorem State.dispatchFrame_port_hold (f : LinkFrame) (l : List LinkFrame) (s : State) : (s.dispatchFrame f l).port.hold = s.port.hold := by
  simp only [State.dispatchFrame]; (repeat' split) <;> simp
@[simp] theorem State.dispatchFrame_port_listenOnly (f : LinkFrame) (l : List LinkFrame) (s : State) : (s.dispatchFrame f l).port.listenOnly = s.port.listenOnly := by
  simp only [State.dispatchFrame]; (repeat' split) <;> simp
@[simp] theorem State.dispatchFrame_port_mntDo (f : LinkFrame) (l : List LinkFrame) (s : State) : (s.dispatchFrame f l).port.mntDo = s.port.mntDo := by
  simp only [State.dispatchFrame]; (repeat' split) <;> simp
@[simp] theorem State.judgeCollected_resetHeld (b : List Byte) (s : State) : (s.judgeCollected b).resetHeld = s.resetHeld := by
  simp only [State.judgeCollected]; (repeat' split) <;> simp
@[simp] theorem State.judgeCollected_now (b : List Byte) (s : State) : (s.judgeCollected b).now = s.now := by
  simp only [State.judgeCollected]; (repeat' split) <;> simp
@[simp] theorem State.judgeCollected_intake (b : List Byte) (s : State) : (s.judgeCollected b).intake = s.intake := by
  simp only [State.judgeCollected]; (repeat' split) <;> simp
@[simp] theorem State.judgeCollected_roster (b : List Byte) (s : State) : (s.judgeCollected b).roster = s.roster := by
  simp only [State.judgeCollected]; (repeat' split) <;> simp
@[simp] theorem State.judgeCollected_strays (b : List Byte) (s : State) : (s.judgeCollected b).strays = s.strays := by
  simp only [State.judgeCollected]; (repeat' split) <;> simp
@[simp] theorem State.judgeCollected_hearing (b : List Byte) (s : State) : (s.judgeCollected b).hearing = s.hearing := by
  simp only [State.judgeCollected]; (repeat' split) <;> simp
@[simp] theorem State.judgeCollected_nego (b : List Byte) (s : State) : (s.judgeCollected b).nego = s.nego := by
  simp only [State.judgeCollected]; (repeat' split) <;> simp
@[simp] theorem State.judgeCollected_steer (b : List Byte) (s : State) : (s.judgeCollected b).steer = s.steer := by
  simp only [State.judgeCollected]; (repeat' split) <;> simp
@[simp] theorem State.judgeCollected_loader (b : List Byte) (s : State) : (s.judgeCollected b).loader = s.loader := by
  simp only [State.judgeCollected]; (repeat' split) <;> simp
@[simp] theorem State.judgeCollected_freeIndex (b : List Byte) (s : State) : (s.judgeCollected b).freeIndex = s.freeIndex := by
  simp only [State.judgeCollected]; (repeat' split) <;> simp
@[simp] theorem State.judgeCollected_pending (b : List Byte) (s : State) : (s.judgeCollected b).pending = s.pending := by
  simp only [State.judgeCollected]; (repeat' split) <;> simp
@[simp] theorem State.judgeCollected_running (b : List Byte) (s : State) : (s.judgeCollected b).running = s.running := by simp [State.running]
@[simp] theorem State.judgeCollected_loaded (b : List Byte) (s : State) : (s.judgeCollected b).loaded = s.loaded := by simp [State.loaded]
@[simp] theorem State.judgeCollected_port_busy (b : List Byte) (s : State) : (s.judgeCollected b).port.busy = s.port.busy := by
  simp only [State.judgeCollected]; (repeat' split) <;> simp
@[simp] theorem State.judgeCollected_port_frame (b : List Byte) (s : State) : (s.judgeCollected b).port.frame = s.port.frame := by
  simp only [State.judgeCollected]; (repeat' split) <;> simp
@[simp] theorem State.judgeCollected_port_cursorTable (b : List Byte) (s : State) : (s.judgeCollected b).port.cursorTable = s.port.cursorTable := by
  simp only [State.judgeCollected]; (repeat' split) <;> simp
@[simp] theorem State.judgeCollected_port_cursorIndex (b : List Byte) (s : State) : (s.judgeCollected b).port.cursorIndex = s.port.cursorIndex := by
  simp only [State.judgeCollected]; (repeat' split) <;> simp
@[simp] theorem State.judgeCollected_port_holder (b : List Byte) (s : State) : (s.judgeCollected b).port.holder = s.port.holder := by
  simp only [State.judgeCollected]; (repeat' split) <;> simp
@[simp] theorem State.judgeCollected_port_fetch (b : List Byte) (s : State) : (s.judgeCollected b).port.fetch = s.port.fetch := by
  simp only [State.judgeCollected]; (repeat' split) <;> simp
@[simp] theorem State.judgeCollected_port_hold (b : List Byte) (s : State) : (s.judgeCollected b).port.hold = s.port.hold := by
  simp only [State.judgeCollected]; (repeat' split) <;> simp
@[simp] theorem State.judgeCollected_port_listenOnly (b : List Byte) (s : State) : (s.judgeCollected b).port.listenOnly = s.port.listenOnly := by
  simp only [State.judgeCollected]; (repeat' split) <;> simp
@[simp] theorem State.judgeCollected_port_mntDo (b : List Byte) (s : State) : (s.judgeCollected b).port.mntDo = s.port.mntDo := by
  simp only [State.judgeCollected]; (repeat' split) <;> simp
@[simp] theorem State.beginLoad_resetHeld (s : State) : (s.beginLoad).resetHeld = s.resetHeld := by
  simp [State.beginLoad]
@[simp] theorem State.beginLoad_now (s : State) : (s.beginLoad).now = s.now := by
  simp [State.beginLoad]
@[simp] theorem State.beginLoad_intake (s : State) : (s.beginLoad).intake = s.intake := by
  simp [State.beginLoad]
@[simp] theorem State.beginLoad_roster (s : State) : (s.beginLoad).roster = s.roster := by
  simp [State.beginLoad]
@[simp] theorem State.beginLoad_strays (s : State) : (s.beginLoad).strays = s.strays := by
  simp [State.beginLoad]
@[simp] theorem State.beginLoad_hearing (s : State) : (s.beginLoad).hearing = s.hearing := by
  simp [State.beginLoad]
@[simp] theorem State.beginLoad_nego (s : State) : (s.beginLoad).nego = s.nego := by
  simp [State.beginLoad]
@[simp] theorem State.beginLoad_steer (s : State) : (s.beginLoad).steer = s.steer := by
  simp [State.beginLoad]
@[simp] theorem State.beginLoad_link (s : State) : (s.beginLoad).link = s.link := by
  simp [State.beginLoad]
@[simp] theorem State.beginLoad_port (s : State) : (s.beginLoad).port = s.port := by
  simp [State.beginLoad]
@[simp] theorem State.beginLoad_freeIndex (s : State) : (s.beginLoad).freeIndex = s.freeIndex := by
  simp [State.beginLoad]
@[simp] theorem State.beginLoad_pending (s : State) : (s.beginLoad).pending = s.pending := by
  simp [State.beginLoad]
@[simp] theorem State.failLoad_resetHeld (b : List BusOp) (s : State) : (s.failLoad b).resetHeld = s.resetHeld := by
  simp [State.failLoad]
@[simp] theorem State.failLoad_now (b : List BusOp) (s : State) : (s.failLoad b).now = s.now := by
  simp [State.failLoad]
@[simp] theorem State.failLoad_intake (b : List BusOp) (s : State) : (s.failLoad b).intake = s.intake := by
  simp [State.failLoad]
@[simp] theorem State.failLoad_roster (b : List BusOp) (s : State) : (s.failLoad b).roster = s.roster := by
  simp [State.failLoad]
@[simp] theorem State.failLoad_strays (b : List BusOp) (s : State) : (s.failLoad b).strays = s.strays := by
  simp [State.failLoad]
@[simp] theorem State.failLoad_hearing (b : List BusOp) (s : State) : (s.failLoad b).hearing = s.hearing := by
  simp [State.failLoad]
@[simp] theorem State.failLoad_nego (b : List BusOp) (s : State) : (s.failLoad b).nego = s.nego := by
  simp [State.failLoad]
@[simp] theorem State.failLoad_steer (b : List BusOp) (s : State) : (s.failLoad b).steer = s.steer := by
  simp [State.failLoad]
@[simp] theorem State.failLoad_link (b : List BusOp) (s : State) : (s.failLoad b).link = s.link := by
  simp [State.failLoad]
@[simp] theorem State.failLoad_freeIndex (b : List BusOp) (s : State) : (s.failLoad b).freeIndex = s.freeIndex := by
  simp [State.failLoad]
@[simp] theorem State.failLoad_pending (b : List BusOp) (s : State) : (s.failLoad b).pending = s.pending := by
  simp [State.failLoad]
@[simp] theorem State.failLoad_port_busy (b : List BusOp) (s : State) : (s.failLoad b).port.busy = s.port.busy := by
  simp [State.failLoad]
@[simp] theorem State.failLoad_port_frame (b : List BusOp) (s : State) : (s.failLoad b).port.frame = s.port.frame := by
  simp [State.failLoad]
@[simp] theorem State.failLoad_port_cursorTable (b : List BusOp) (s : State) : (s.failLoad b).port.cursorTable = s.port.cursorTable := by
  simp [State.failLoad]
@[simp] theorem State.failLoad_port_cursorIndex (b : List BusOp) (s : State) : (s.failLoad b).port.cursorIndex = s.port.cursorIndex := by
  simp [State.failLoad]
@[simp] theorem State.failLoad_port_holder (b : List BusOp) (s : State) : (s.failLoad b).port.holder = s.port.holder := by
  simp [State.failLoad]
@[simp] theorem State.failLoad_port_fetch (b : List BusOp) (s : State) : (s.failLoad b).port.fetch = s.port.fetch := by
  simp [State.failLoad]
@[simp] theorem State.failLoad_port_hold (b : List BusOp) (s : State) : (s.failLoad b).port.hold = s.port.hold := by
  simp [State.failLoad]
@[simp] theorem State.failLoad_port_listenOnly (b : List BusOp) (s : State) : (s.failLoad b).port.listenOnly = s.port.listenOnly := by
  simp [State.failLoad]
@[simp] theorem State.failLoad_port_mntDo (b : List BusOp) (s : State) : (s.failLoad b).port.mntDo = s.port.mntDo := by
  simp [State.failLoad]
@[simp] theorem State.succeedLoad_resetHeld (b : List Byte) (s : State) : (s.succeedLoad b).resetHeld = s.resetHeld := by
  simp [State.succeedLoad]
@[simp] theorem State.succeedLoad_now (b : List Byte) (s : State) : (s.succeedLoad b).now = s.now := by
  simp [State.succeedLoad]
@[simp] theorem State.succeedLoad_intake (b : List Byte) (s : State) : (s.succeedLoad b).intake = s.intake := by
  simp [State.succeedLoad]
@[simp] theorem State.succeedLoad_roster (b : List Byte) (s : State) : (s.succeedLoad b).roster = s.roster := by
  simp [State.succeedLoad]
@[simp] theorem State.succeedLoad_nego (b : List Byte) (s : State) : (s.succeedLoad b).nego = s.nego := by
  simp [State.succeedLoad]
@[simp] theorem State.succeedLoad_steer (b : List Byte) (s : State) : (s.succeedLoad b).steer = s.steer := by
  simp [State.succeedLoad]
@[simp] theorem State.succeedLoad_freeIndex (b : List Byte) (s : State) : (s.succeedLoad b).freeIndex = s.freeIndex := by
  simp [State.succeedLoad]
@[simp] theorem State.succeedLoad_pending (b : List Byte) (s : State) : (s.succeedLoad b).pending = s.pending := by
  simp [State.succeedLoad]
@[simp] theorem State.startFetch_resetHeld (s : State) : (s.startFetch).resetHeld = s.resetHeld := by
  simp only [State.startFetch]; (repeat' split) <;> simp
@[simp] theorem State.startFetch_now (s : State) : (s.startFetch).now = s.now := by
  simp only [State.startFetch]; (repeat' split) <;> simp
@[simp] theorem State.startFetch_intake (s : State) : (s.startFetch).intake = s.intake := by
  simp only [State.startFetch]; (repeat' split) <;> simp
@[simp] theorem State.startFetch_roster (s : State) : (s.startFetch).roster = s.roster := by
  simp only [State.startFetch]; (repeat' split) <;> simp
@[simp] theorem State.startFetch_strays (s : State) : (s.startFetch).strays = s.strays := by
  simp only [State.startFetch]; (repeat' split) <;> simp
@[simp] theorem State.startFetch_hearing (s : State) : (s.startFetch).hearing = s.hearing := by
  simp only [State.startFetch]; (repeat' split) <;> simp
@[simp] theorem State.startFetch_nego (s : State) : (s.startFetch).nego = s.nego := by
  simp only [State.startFetch]; (repeat' split) <;> simp
@[simp] theorem State.startFetch_steer (s : State) : (s.startFetch).steer = s.steer := by
  simp only [State.startFetch]; (repeat' split) <;> simp
@[simp] theorem State.startFetch_link (s : State) : (s.startFetch).link = s.link := by
  simp only [State.startFetch]; (repeat' split) <;> simp
@[simp] theorem State.startFetch_loader (s : State) : (s.startFetch).loader = s.loader := by
  simp only [State.startFetch]; (repeat' split) <;> simp
@[simp] theorem State.startFetch_freeIndex (s : State) : (s.startFetch).freeIndex = s.freeIndex := by
  simp only [State.startFetch]; (repeat' split) <;> simp
@[simp] theorem State.startFetch_pending (s : State) : (s.startFetch).pending = s.pending := by
  simp only [State.startFetch]; (repeat' split) <;> simp
@[simp] theorem State.startFetch_running (s : State) : (s.startFetch).running = s.running := by simp [State.running]
@[simp] theorem State.startFetch_loaded (s : State) : (s.startFetch).loaded = s.loaded := by simp [State.loaded]
@[simp] theorem State.dropCommand_resetHeld (s : State) : (s.dropCommand).resetHeld = s.resetHeld := by
  simp [State.dropCommand]
@[simp] theorem State.dropCommand_now (s : State) : (s.dropCommand).now = s.now := by
  simp [State.dropCommand]
@[simp] theorem State.dropCommand_intake (s : State) : (s.dropCommand).intake = s.intake := by
  simp [State.dropCommand]
@[simp] theorem State.dropCommand_roster (s : State) : (s.dropCommand).roster = s.roster := by
  simp [State.dropCommand]
@[simp] theorem State.dropCommand_strays (s : State) : (s.dropCommand).strays = s.strays := by
  simp [State.dropCommand]
@[simp] theorem State.dropCommand_hearing (s : State) : (s.dropCommand).hearing = s.hearing := by
  simp [State.dropCommand]
@[simp] theorem State.dropCommand_nego (s : State) : (s.dropCommand).nego = s.nego := by
  simp [State.dropCommand]
@[simp] theorem State.dropCommand_steer (s : State) : (s.dropCommand).steer = s.steer := by
  simp [State.dropCommand]
@[simp] theorem State.dropCommand_link (s : State) : (s.dropCommand).link = s.link := by
  simp [State.dropCommand]
@[simp] theorem State.dropCommand_loader (s : State) : (s.dropCommand).loader = s.loader := by
  simp [State.dropCommand]
@[simp] theorem State.dropCommand_freeIndex (s : State) : (s.dropCommand).freeIndex = s.freeIndex := by
  simp [State.dropCommand]
@[simp] theorem State.dropCommand_pending (s : State) : (s.dropCommand).pending = s.pending := by
  simp [State.dropCommand]
@[simp] theorem State.dropCommand_running (s : State) : (s.dropCommand).running = s.running := by simp [State.running]
@[simp] theorem State.dropCommand_loaded (s : State) : (s.dropCommand).loaded = s.loaded := by simp [State.loaded]
@[simp] theorem State.dropCommand_port_busy (s : State) : (s.dropCommand).port.busy = s.port.busy := by
  simp [State.dropCommand]
@[simp] theorem State.dropCommand_port_frame (s : State) : (s.dropCommand).port.frame = s.port.frame := by
  simp [State.dropCommand]
@[simp] theorem State.dropCommand_port_cursorTable (s : State) : (s.dropCommand).port.cursorTable = s.port.cursorTable := by
  simp [State.dropCommand]
@[simp] theorem State.dropCommand_port_cursorIndex (s : State) : (s.dropCommand).port.cursorIndex = s.port.cursorIndex := by
  simp [State.dropCommand]
@[simp] theorem State.dropCommand_port_holder (s : State) : (s.dropCommand).port.holder = s.port.holder := by
  simp [State.dropCommand]
@[simp] theorem State.dropCommand_port_fetch (s : State) : (s.dropCommand).port.fetch = s.port.fetch := by
  simp [State.dropCommand]
@[simp] theorem State.dropCommand_port_hold (s : State) : (s.dropCommand).port.hold = s.port.hold := by
  simp [State.dropCommand]
@[simp] theorem State.dropCommand_port_listenOnly (s : State) : (s.dropCommand).port.listenOnly = s.port.listenOnly := by
  simp [State.dropCommand]
@[simp] theorem State.dropCommand_port_mntDo (s : State) : (s.dropCommand).port.mntDo = s.port.mntDo := by
  simp [State.dropCommand]
@[simp] theorem State.setHoldMode_resetHeld (m : HoldMode) (s : State) : (s.setHoldMode m).resetHeld = s.resetHeld := by
  simp only [State.setHoldMode]; (repeat' split) <;> simp
@[simp] theorem State.setHoldMode_now (m : HoldMode) (s : State) : (s.setHoldMode m).now = s.now := by
  simp only [State.setHoldMode]; (repeat' split) <;> simp
@[simp] theorem State.setHoldMode_intake (m : HoldMode) (s : State) : (s.setHoldMode m).intake = s.intake := by
  simp only [State.setHoldMode]; (repeat' split) <;> simp
@[simp] theorem State.setHoldMode_strays (m : HoldMode) (s : State) : (s.setHoldMode m).strays = s.strays := by
  simp only [State.setHoldMode]; (repeat' split) <;> simp
@[simp] theorem State.setHoldMode_hearing (m : HoldMode) (s : State) : (s.setHoldMode m).hearing = s.hearing := by
  simp only [State.setHoldMode]; (repeat' split) <;> simp
@[simp] theorem State.setHoldMode_nego (m : HoldMode) (s : State) : (s.setHoldMode m).nego = s.nego := by
  simp only [State.setHoldMode]; (repeat' split) <;> simp
@[simp] theorem State.setHoldMode_steer (m : HoldMode) (s : State) : (s.setHoldMode m).steer = s.steer := by
  simp only [State.setHoldMode]; (repeat' split) <;> simp
@[simp] theorem State.setHoldMode_link (m : HoldMode) (s : State) : (s.setHoldMode m).link = s.link := by
  simp only [State.setHoldMode]; (repeat' split) <;> simp
@[simp] theorem State.setHoldMode_loader (m : HoldMode) (s : State) : (s.setHoldMode m).loader = s.loader := by
  simp only [State.setHoldMode]; (repeat' split) <;> simp
@[simp] theorem State.setHoldMode_freeIndex (m : HoldMode) (s : State) : (s.setHoldMode m).freeIndex = s.freeIndex := by
  simp only [State.setHoldMode]; (repeat' split) <;> simp
@[simp] theorem State.setHoldMode_pending (m : HoldMode) (s : State) : (s.setHoldMode m).pending = s.pending := by
  simp only [State.setHoldMode]; (repeat' split) <;> simp
@[simp] theorem State.setHoldMode_running (m : HoldMode) (s : State) : (s.setHoldMode m).running = s.running := by simp [State.running]
@[simp] theorem State.setHoldMode_loaded (m : HoldMode) (s : State) : (s.setHoldMode m).loaded = s.loaded := by simp [State.loaded]
@[simp] theorem State.pinRadio_resetHeld (r : Radio) (s : State) : (s.pinRadio r).resetHeld = s.resetHeld := by
  simp only [State.pinRadio]; (repeat' split) <;> simp
@[simp] theorem State.pinRadio_now (r : Radio) (s : State) : (s.pinRadio r).now = s.now := by
  simp only [State.pinRadio]; (repeat' split) <;> simp
@[simp] theorem State.pinRadio_intake (r : Radio) (s : State) : (s.pinRadio r).intake = s.intake := by
  simp only [State.pinRadio]; (repeat' split) <;> simp
@[simp] theorem State.pinRadio_strays (r : Radio) (s : State) : (s.pinRadio r).strays = s.strays := by
  simp only [State.pinRadio]; (repeat' split) <;> simp
@[simp] theorem State.pinRadio_hearing (r : Radio) (s : State) : (s.pinRadio r).hearing = s.hearing := by
  simp only [State.pinRadio]; (repeat' split) <;> simp
@[simp] theorem State.pinRadio_nego (r : Radio) (s : State) : (s.pinRadio r).nego = s.nego := by
  simp only [State.pinRadio]; (repeat' split) <;> simp
@[simp] theorem State.pinRadio_steer (r : Radio) (s : State) : (s.pinRadio r).steer = s.steer := by
  simp only [State.pinRadio]; (repeat' split) <;> simp
@[simp] theorem State.pinRadio_link (r : Radio) (s : State) : (s.pinRadio r).link = s.link := by
  simp only [State.pinRadio]; (repeat' split) <;> simp
@[simp] theorem State.pinRadio_loader (r : Radio) (s : State) : (s.pinRadio r).loader = s.loader := by
  simp only [State.pinRadio]; (repeat' split) <;> simp
@[simp] theorem State.pinRadio_freeIndex (r : Radio) (s : State) : (s.pinRadio r).freeIndex = s.freeIndex := by
  simp only [State.pinRadio]; (repeat' split) <;> simp
@[simp] theorem State.pinRadio_pending (r : Radio) (s : State) : (s.pinRadio r).pending = s.pending := by
  simp only [State.pinRadio]; (repeat' split) <;> simp
@[simp] theorem State.pinRadio_running (r : Radio) (s : State) : (s.pinRadio r).running = s.running := by simp [State.running]
@[simp] theorem State.pinRadio_loaded (r : Radio) (s : State) : (s.pinRadio r).loaded = s.loaded := by simp [State.loaded]
@[simp] theorem State.pinRadio_port_busy (r : Radio) (s : State) : (s.pinRadio r).port.busy = s.port.busy := by
  simp only [State.pinRadio]; (repeat' split) <;> simp
@[simp] theorem State.pinRadio_port_frame (r : Radio) (s : State) : (s.pinRadio r).port.frame = s.port.frame := by
  simp only [State.pinRadio]; (repeat' split) <;> simp
@[simp] theorem State.pinRadio_port_cursorTable (r : Radio) (s : State) : (s.pinRadio r).port.cursorTable = s.port.cursorTable := by
  simp only [State.pinRadio]; (repeat' split) <;> simp
@[simp] theorem State.pinRadio_port_cursorIndex (r : Radio) (s : State) : (s.pinRadio r).port.cursorIndex = s.port.cursorIndex := by
  simp only [State.pinRadio]; (repeat' split) <;> simp
@[simp] theorem State.pinRadio_port_holder (r : Radio) (s : State) : (s.pinRadio r).port.holder = s.port.holder := by
  simp only [State.pinRadio]; (repeat' split) <;> simp
@[simp] theorem State.pinRadio_port_fetch (r : Radio) (s : State) : (s.pinRadio r).port.fetch = s.port.fetch := by
  simp only [State.pinRadio]; (repeat' split) <;> simp
@[simp] theorem State.pinRadio_port_hold (r : Radio) (s : State) : (s.pinRadio r).port.hold = s.port.hold := by
  simp only [State.pinRadio]; (repeat' split) <;> simp
@[simp] theorem State.pinRadio_port_listenOnly (r : Radio) (s : State) : (s.pinRadio r).port.listenOnly = s.port.listenOnly := by
  simp only [State.pinRadio]; (repeat' split) <;> simp
@[simp] theorem State.pinRadio_port_mntDo (r : Radio) (s : State) : (s.pinRadio r).port.mntDo = s.port.mntDo := by
  simp only [State.pinRadio]; (repeat' split) <;> simp
@[simp] theorem State.unpinRadio_resetHeld (r : Radio) (s : State) : (s.unpinRadio r).resetHeld = s.resetHeld := by
  simp only [State.unpinRadio]; (repeat' split) <;> simp
@[simp] theorem State.unpinRadio_now (r : Radio) (s : State) : (s.unpinRadio r).now = s.now := by
  simp only [State.unpinRadio]; (repeat' split) <;> simp
@[simp] theorem State.unpinRadio_intake (r : Radio) (s : State) : (s.unpinRadio r).intake = s.intake := by
  simp only [State.unpinRadio]; (repeat' split) <;> simp
@[simp] theorem State.unpinRadio_strays (r : Radio) (s : State) : (s.unpinRadio r).strays = s.strays := by
  simp only [State.unpinRadio]; (repeat' split) <;> simp
@[simp] theorem State.unpinRadio_hearing (r : Radio) (s : State) : (s.unpinRadio r).hearing = s.hearing := by
  simp only [State.unpinRadio]; (repeat' split) <;> simp
@[simp] theorem State.unpinRadio_nego (r : Radio) (s : State) : (s.unpinRadio r).nego = s.nego := by
  simp only [State.unpinRadio]; (repeat' split) <;> simp
@[simp] theorem State.unpinRadio_steer (r : Radio) (s : State) : (s.unpinRadio r).steer = s.steer := by
  simp only [State.unpinRadio]; (repeat' split) <;> simp
@[simp] theorem State.unpinRadio_link (r : Radio) (s : State) : (s.unpinRadio r).link = s.link := by
  simp only [State.unpinRadio]; (repeat' split) <;> simp
@[simp] theorem State.unpinRadio_loader (r : Radio) (s : State) : (s.unpinRadio r).loader = s.loader := by
  simp only [State.unpinRadio]; (repeat' split) <;> simp
@[simp] theorem State.unpinRadio_port (r : Radio) (s : State) : (s.unpinRadio r).port = s.port := by
  simp only [State.unpinRadio]; (repeat' split) <;> simp
@[simp] theorem State.unpinRadio_freeIndex (r : Radio) (s : State) : (s.unpinRadio r).freeIndex = s.freeIndex := by
  simp only [State.unpinRadio]; (repeat' split) <;> simp
@[simp] theorem State.unpinRadio_pending (r : Radio) (s : State) : (s.unpinRadio r).pending = s.pending := by
  simp only [State.unpinRadio]; (repeat' split) <;> simp
@[simp] theorem State.unpinRadio_running (r : Radio) (s : State) : (s.unpinRadio r).running = s.running := by simp [State.running]
@[simp] theorem State.unpinRadio_loaded (r : Radio) (s : State) : (s.unpinRadio r).loaded = s.loaded := by simp [State.loaded]
@[simp] theorem State.setListenOnly_resetHeld (b : Bool) (s : State) : (s.setListenOnly b).resetHeld = s.resetHeld := by
  simp only [State.setListenOnly]; (repeat' split) <;> simp
@[simp] theorem State.setListenOnly_now (b : Bool) (s : State) : (s.setListenOnly b).now = s.now := by
  simp only [State.setListenOnly]; (repeat' split) <;> simp
@[simp] theorem State.setListenOnly_intake (b : Bool) (s : State) : (s.setListenOnly b).intake = s.intake := by
  simp only [State.setListenOnly]; (repeat' split) <;> simp
@[simp] theorem State.setListenOnly_strays (b : Bool) (s : State) : (s.setListenOnly b).strays = s.strays := by
  simp only [State.setListenOnly]; (repeat' split) <;> simp
@[simp] theorem State.setListenOnly_hearing (b : Bool) (s : State) : (s.setListenOnly b).hearing = s.hearing := by
  simp only [State.setListenOnly]; (repeat' split) <;> simp
@[simp] theorem State.setListenOnly_nego (b : Bool) (s : State) : (s.setListenOnly b).nego = s.nego := by
  simp only [State.setListenOnly]; (repeat' split) <;> simp
@[simp] theorem State.setListenOnly_steer (b : Bool) (s : State) : (s.setListenOnly b).steer = s.steer := by
  simp only [State.setListenOnly]; (repeat' split) <;> simp
@[simp] theorem State.setListenOnly_loader (b : Bool) (s : State) : (s.setListenOnly b).loader = s.loader := by
  simp only [State.setListenOnly]; (repeat' split) <;> simp
@[simp] theorem State.setListenOnly_freeIndex (b : Bool) (s : State) : (s.setListenOnly b).freeIndex = s.freeIndex := by
  simp only [State.setListenOnly]; (repeat' split) <;> simp
@[simp] theorem State.setListenOnly_pending (b : Bool) (s : State) : (s.setListenOnly b).pending = s.pending := by
  simp only [State.setListenOnly]; (repeat' split) <;> simp
@[simp] theorem State.setListenOnly_running (b : Bool) (s : State) : (s.setListenOnly b).running = s.running := by simp [State.running]
@[simp] theorem State.setListenOnly_loaded (b : Bool) (s : State) : (s.setListenOnly b).loaded = s.loaded := by simp [State.loaded]
@[simp] theorem State.beginFlush_resetHeld (s : State) : (s.beginFlush).resetHeld = s.resetHeld := by
  simp [State.beginFlush]
@[simp] theorem State.beginFlush_now (s : State) : (s.beginFlush).now = s.now := by
  simp [State.beginFlush]
@[simp] theorem State.beginFlush_freeIndex (s : State) : (s.beginFlush).freeIndex = s.freeIndex := by
  simp [State.beginFlush]
@[simp] theorem State.beginFlush_pending (s : State) : (s.beginFlush).pending = s.pending := by
  simp [State.beginFlush]

end Sys2Proof.Machine
end

