-- ==== Sys2Proof/Laws/Ops.lean ====
section
/-! SUPPORT. Equality of states block by block, the shapes of a meaning, and what the operations on whole frames leave
unchanged. -/

namespace Sys2Proof.Machine

/-! ### Equality of states -/

/-- Two states with the same blocks are equal. -/
theorem State.eq_of_blocks {s t : State} (h1 : s.resetHeld = t.resetHeld) (h2 : s.now = t.now) (h3 : s.intake = t.intake)
    (h4 : s.roster = t.roster) (h5 : s.strays = t.strays) (h6 : s.hearing = t.hearing) (h7 : s.nego = t.nego)
    (h8 : s.steer = t.steer) (h9 : s.link = t.link) (h10 : s.loader = t.loader) (h11 : s.port = t.port)
    (h12 : s.freeIndex = t.freeIndex) (h13 : s.pending = t.pending) : s = t := by
  cases s; cases t; simp_all

/-- Two ports with the same fields are equal. -/
theorem Port.eq_of_fields {p q : Port} (h1 : p.busy = q.busy) (h2 : p.frame = q.frame)
    (h3 : p.cursorTable = q.cursorTable) (h4 : p.cursorIndex = q.cursorIndex) (h5 : p.holder = q.holder)
    (h6 : p.fetch = q.fetch) (h7 : p.flags = q.flags) (h8 : p.counters = q.counters) (h9 : p.hold = q.hold)
    (h10 : p.listenOnly = q.listenOnly) (h11 : p.mntDo = q.mntDo) : p = q := by
  cases p; cases q; simp_all

/-! ### The shapes of a meaning -/

/-- With RESET_N high a served command has its effect. -/
theorem serve_high (f : State → State) {s : State} (h : s.resetHeld = false) : serve f s = .next (f s) := by
  simp [serve, h]

/-- With RESET_N low a served command has none. -/
theorem serve_low (f : State → State) {s : State} (h : s.resetHeld = true) : serve f s = .next s := by
  simp [serve, h]

/-- A served command always completes. -/
theorem serve_next (f : State → State) (s : State) : ∃ t, serve f s = .next t ∧ (t = s ∨ t = f s) := by
  cases h : s.resetHeld
  · exact ⟨_, serve_high f h, .inr rfl⟩
  · exact ⟨_, serve_low f h, .inl rfl⟩

theorem serve_eq_next {f : State → State} {s t : State} (h : serve f s = .next t) :
    (s.resetHeld = true ∧ t = s) ∨ (s.resetHeld = false ∧ t = f s) := by
  cases hr : s.resetHeld <;> simp [serve, hr] at h <;> simp [h]

theorem serveIf_true {b : Bool} (f : State → State) (s : State) (h : b = true) : serveIf b f s = serve f s := by
  simp [serveIf, h]

theorem serveIf_false {b : Bool} (f : State → State) (s : State) (h : b = false) :
    serveIf b f s = .refused .illFormed := by
  simp [serveIf, h]

theorem serveIf_eq_next {b : Bool} {f : State → State} {s t : State} (h : serveIf b f s = .next t) :
    b = true ∧ ((s.resetHeld = true ∧ t = s) ∨ (s.resetHeld = false ∧ t = f s)) := by
  cases b
  · simp [serveIf] at h
  · exact ⟨rfl, serve_eq_next h⟩

/-! ### Whole report frames -/

/-- What the eight slots keep, one slot keeps. -/
theorem State.takeSlots_keeps {α : Type} (g : State → α) (frame : List Byte)
    (h : ∀ (s : State) (p : Fin 8), g (s.takeSlot frame p) = g s) (s : State) : g (s.takeSlots frame) = g s := by
  unfold State.takeSlots
  generalize List.finRange 8 = l
  induction l generalizing s with
  | nil => rfl
  | cons p l ih => rw [List.foldl_cons, ih, h]

/-- A property that one slot keeps, the eight slots keep. -/
theorem State.takeSlots_induct {P : State → Prop} (frame : List Byte)
    (h : ∀ (s : State) (p : Fin 8), P s → P (s.takeSlot frame p)) (s : State) (hs : P s) : P (s.takeSlots frame) := by
  unfold State.takeSlots
  generalize List.finRange 8 = l
  induction l generalizing s with
  | nil => exact hs
  | cons p l ih => rw [List.foldl_cons]; exact ih _ (h s p hs)

@[simp] theorem State.takeSlot_resetHeld (frame : List Byte) (s : State) (p : Fin 8) : (s.takeSlot frame p).resetHeld = s.resetHeld := by
  simp only [State.takeSlot]; split <;> simp
@[simp] theorem State.takeSlots_resetHeld (frame : List Byte) (s : State) : (s.takeSlots frame).resetHeld = s.resetHeld :=
  State.takeSlots_keeps (fun s => s.resetHeld) frame (fun s p => State.takeSlot_resetHeld frame s p) s
@[simp] theorem State.takeFrame_resetHeld (frame : List Byte) (s : State) : (s.takeFrame frame).resetHeld = s.resetHeld := by
  simp only [State.takeFrame]; split <;> simp
@[simp] theorem State.takeSlot_now (frame : List Byte) (s : State) (p : Fin 8) : (s.takeSlot frame p).now = s.now := by
  simp only [State.takeSlot]; split <;> simp
@[simp] theorem State.takeSlots_now (frame : List Byte) (s : State) : (s.takeSlots frame).now = s.now :=
  State.takeSlots_keeps (fun s => s.now) frame (fun s p => State.takeSlot_now frame s p) s
@[simp] theorem State.takeFrame_now (frame : List Byte) (s : State) : (s.takeFrame frame).now = s.now := by
  simp only [State.takeFrame]; split <;> simp
@[simp] theorem State.takeSlot_hearing (frame : List Byte) (s : State) (p : Fin 8) : (s.takeSlot frame p).hearing = s.hearing := by
  simp only [State.takeSlot]; split <;> simp
@[simp] theorem State.takeSlots_hearing (frame : List Byte) (s : State) : (s.takeSlots frame).hearing = s.hearing :=
  State.takeSlots_keeps (fun s => s.hearing) frame (fun s p => State.takeSlot_hearing frame s p) s
@[simp] theorem State.takeFrame_hearing (frame : List Byte) (s : State) : (s.takeFrame frame).hearing = s.hearing := by
  simp only [State.takeFrame]; split <;> simp
@[simp] theorem State.takeSlot_loader (frame : List Byte) (s : State) (p : Fin 8) : (s.takeSlot frame p).loader = s.loader := by
  simp only [State.takeSlot]; split <;> simp
@[simp] theorem State.takeSlots_loader (frame : List Byte) (s : State) : (s.takeSlots frame).loader = s.loader :=
  State.takeSlots_keeps (fun s => s.loader) frame (fun s p => State.takeSlot_loader frame s p) s
@[simp] theorem State.takeFrame_loader (frame : List Byte) (s : State) : (s.takeFrame frame).loader = s.loader := by
  simp only [State.takeFrame]; split <;> simp
@[simp] theorem State.takeSlot_freeIndex (frame : List Byte) (s : State) (p : Fin 8) : (s.takeSlot frame p).freeIndex = s.freeIndex := by
  simp only [State.takeSlot]; split <;> simp
@[simp] theorem State.takeSlots_freeIndex (frame : List Byte) (s : State) : (s.takeSlots frame).freeIndex = s.freeIndex :=
  State.takeSlots_keeps (fun s => s.freeIndex) frame (fun s p => State.takeSlot_freeIndex frame s p) s
@[simp] theorem State.takeFrame_freeIndex (frame : List Byte) (s : State) : (s.takeFrame frame).freeIndex = s.freeIndex := by
  simp only [State.takeFrame]; split <;> simp
@[simp] theorem State.takeSlot_pending (frame : List Byte) (s : State) (p : Fin 8) : (s.takeSlot frame p).pending = s.pending := by
  simp only [State.takeSlot]; split <;> simp
@[simp] theorem State.takeSlots_pending (frame : List Byte) (s : State) : (s.takeSlots frame).pending = s.pending :=
  State.takeSlots_keeps (fun s => s.pending) frame (fun s p => State.takeSlot_pending frame s p) s
@[simp] theorem State.takeFrame_pending (frame : List Byte) (s : State) : (s.takeFrame frame).pending = s.pending := by
  simp only [State.takeFrame]; split <;> simp
@[simp] theorem State.takeSlot_running (frame : List Byte) (s : State) (p : Fin 8) : (s.takeSlot frame p).running = s.running := by
  simp only [State.takeSlot]; split <;> simp
@[simp] theorem State.takeSlots_running (frame : List Byte) (s : State) : (s.takeSlots frame).running = s.running :=
  State.takeSlots_keeps (fun s => s.running) frame (fun s p => State.takeSlot_running frame s p) s
@[simp] theorem State.takeFrame_running (frame : List Byte) (s : State) : (s.takeFrame frame).running = s.running := by
  simp only [State.takeFrame]; split <;> simp
@[simp] theorem State.takeSlot_loaded (frame : List Byte) (s : State) (p : Fin 8) : (s.takeSlot frame p).loaded = s.loaded := by
  simp only [State.takeSlot]; split <;> simp
@[simp] theorem State.takeSlots_loaded (frame : List Byte) (s : State) : (s.takeSlots frame).loaded = s.loaded :=
  State.takeSlots_keeps (fun s => s.loaded) frame (fun s p => State.takeSlot_loaded frame s p) s
@[simp] theorem State.takeFrame_loaded (frame : List Byte) (s : State) : (s.takeFrame frame).loaded = s.loaded := by
  simp only [State.takeFrame]; split <;> simp
@[simp] theorem State.takeSlot_port_busy (frame : List Byte) (s : State) (p : Fin 8) : (s.takeSlot frame p).port.busy = s.port.busy := by
  simp only [State.takeSlot]; split <;> simp
@[simp] theorem State.takeSlots_port_busy (frame : List Byte) (s : State) : (s.takeSlots frame).port.busy = s.port.busy :=
  State.takeSlots_keeps (fun s => s.port.busy) frame (fun s p => State.takeSlot_port_busy frame s p) s
@[simp] theorem State.takeFrame_port_busy (frame : List Byte) (s : State) : (s.takeFrame frame).port.busy = s.port.busy := by
  simp only [State.takeFrame]; split <;> simp
@[simp] theorem State.takeSlot_port_frame (frame : List Byte) (s : State) (p : Fin 8) : (s.takeSlot frame p).port.frame = s.port.frame := by
  simp only [State.takeSlot]; split <;> simp
@[simp] theorem State.takeSlots_port_frame (frame : List Byte) (s : State) : (s.takeSlots frame).port.frame = s.port.frame :=
  State.takeSlots_keeps (fun s => s.port.frame) frame (fun s p => State.takeSlot_port_frame frame s p) s
@[simp] theorem State.takeFrame_port_frame (frame : List Byte) (s : State) : (s.takeFrame frame).port.frame = s.port.frame := by
  simp only [State.takeFrame]; split <;> simp
@[simp] theorem State.takeSlot_port_cursorTable (frame : List Byte) (s : State) (p : Fin 8) : (s.takeSlot frame p).port.cursorTable = s.port.cursorTable := by
  simp only [State.takeSlot]; split <;> simp
@[simp] theorem State.takeSlots_port_cursorTable (frame : List Byte) (s : State) : (s.takeSlots frame).port.cursorTable = s.port.cursorTable :=
  State.takeSlots_keeps (fun s => s.port.cursorTable) frame (fun s p => State.takeSlot_port_cursorTable frame s p) s
@[simp] theorem State.takeFrame_port_cursorTable (frame : List Byte) (s : State) : (s.takeFrame frame).port.cursorTable = s.port.cursorTable := by
  simp only [State.takeFrame]; split <;> simp
@[simp] theorem State.takeSlot_port_cursorIndex (frame : List Byte) (s : State) (p : Fin 8) : (s.takeSlot frame p).port.cursorIndex = s.port.cursorIndex := by
  simp only [State.takeSlot]; split <;> simp
@[simp] theorem State.takeSlots_port_cursorIndex (frame : List Byte) (s : State) : (s.takeSlots frame).port.cursorIndex = s.port.cursorIndex :=
  State.takeSlots_keeps (fun s => s.port.cursorIndex) frame (fun s p => State.takeSlot_port_cursorIndex frame s p) s
@[simp] theorem State.takeFrame_port_cursorIndex (frame : List Byte) (s : State) : (s.takeFrame frame).port.cursorIndex = s.port.cursorIndex := by
  simp only [State.takeFrame]; split <;> simp
@[simp] theorem State.takeSlot_port_holder (frame : List Byte) (s : State) (p : Fin 8) : (s.takeSlot frame p).port.holder = s.port.holder := by
  simp only [State.takeSlot]; split <;> simp
@[simp] theorem State.takeSlots_port_holder (frame : List Byte) (s : State) : (s.takeSlots frame).port.holder = s.port.holder :=
  State.takeSlots_keeps (fun s => s.port.holder) frame (fun s p => State.takeSlot_port_holder frame s p) s
@[simp] theorem State.takeFrame_port_holder (frame : List Byte) (s : State) : (s.takeFrame frame).port.holder = s.port.holder := by
  simp only [State.takeFrame]; split <;> simp
@[simp] theorem State.takeSlot_port_fetch (frame : List Byte) (s : State) (p : Fin 8) : (s.takeSlot frame p).port.fetch = s.port.fetch := by
  simp only [State.takeSlot]; split <;> simp
@[simp] theorem State.takeSlots_port_fetch (frame : List Byte) (s : State) : (s.takeSlots frame).port.fetch = s.port.fetch :=
  State.takeSlots_keeps (fun s => s.port.fetch) frame (fun s p => State.takeSlot_port_fetch frame s p) s
@[simp] theorem State.takeFrame_port_fetch (frame : List Byte) (s : State) : (s.takeFrame frame).port.fetch = s.port.fetch := by
  simp only [State.takeFrame]; split <;> simp
@[simp] theorem State.takeSlot_port_hold (frame : List Byte) (s : State) (p : Fin 8) : (s.takeSlot frame p).port.hold = s.port.hold := by
  simp only [State.takeSlot]; split <;> simp
@[simp] theorem State.takeSlots_port_hold (frame : List Byte) (s : State) : (s.takeSlots frame).port.hold = s.port.hold :=
  State.takeSlots_keeps (fun s => s.port.hold) frame (fun s p => State.takeSlot_port_hold frame s p) s
@[simp] theorem State.takeFrame_port_hold (frame : List Byte) (s : State) : (s.takeFrame frame).port.hold = s.port.hold := by
  simp only [State.takeFrame]; split <;> simp
@[simp] theorem State.takeSlot_port_listenOnly (frame : List Byte) (s : State) (p : Fin 8) : (s.takeSlot frame p).port.listenOnly = s.port.listenOnly := by
  simp only [State.takeSlot]; split <;> simp
@[simp] theorem State.takeSlots_port_listenOnly (frame : List Byte) (s : State) : (s.takeSlots frame).port.listenOnly = s.port.listenOnly :=
  State.takeSlots_keeps (fun s => s.port.listenOnly) frame (fun s p => State.takeSlot_port_listenOnly frame s p) s
@[simp] theorem State.takeFrame_port_listenOnly (frame : List Byte) (s : State) : (s.takeFrame frame).port.listenOnly = s.port.listenOnly := by
  simp only [State.takeFrame]; split <;> simp
@[simp] theorem State.takeSlot_port_mntDo (frame : List Byte) (s : State) (p : Fin 8) : (s.takeSlot frame p).port.mntDo = s.port.mntDo := by
  simp only [State.takeSlot]; split <;> simp
@[simp] theorem State.takeSlots_port_mntDo (frame : List Byte) (s : State) : (s.takeSlots frame).port.mntDo = s.port.mntDo :=
  State.takeSlots_keeps (fun s => s.port.mntDo) frame (fun s p => State.takeSlot_port_mntDo frame s p) s
@[simp] theorem State.takeFrame_port_mntDo (frame : List Byte) (s : State) : (s.takeFrame frame).port.mntDo = s.port.mntDo := by
  simp only [State.takeFrame]; split <;> simp

/-! ### Command frames -/

/-- A property that opening and ending a frame, CMD_DROPPED and the effect of a command keep, the part of a frame keeps. -/
theorem State.portCommand_induct {P : State → Prop} (c : PortCommand) (part : FramePart)
    (hframe : ∀ (s : State) (f : Option OpenFrame), P s → P (s.withPort { s.port with frame := f }))
    (hend : ∀ (s : State) (m : List Byte), P s → P (s.withPort { s.port with frame := none, mntDo := m }))
    (hdrop : ∀ s : State, P s → P (s.raise .cmdDropped)) (heff : ∀ (shown : List Byte) (s : State), P s → P (c.effect shown s))
    (s : State) (hs : P s) : P (s.portCommand c part) := by
  have hopen : ∀ s : State, P s → P (s.commandByte c) := by
    intro s hs
    unfold State.commandByte
    split
    · exact hs
    · exact hframe _ _ hs
  have hargs : ∀ s : State, P s → P (s.argumentBytes c) := by
    intro s hs
    unfold State.argumentBytes
    split
    · split
      · exact hframe _ _ hs
      · exact hs
    · exact hs
  have hends : ∀ (n : Nat) (s : State), P s → P (s.frameEnds c n) := by
    intro n s hs
    have ha : P (if c.args.length ≤ n then s.argumentBytes c else s) := by
      split
      · exact hargs s hs
      · exact hs
    unfold State.frameEnds
    dsimp only
    split
    · split
      · split
        · exact heff _ _ (hend _ _ ha)
        · exact hdrop _ (hend _ _ ha)
      · exact hs
    · exact hs
  cases part with
  | command => exact hopen s hs
  | arguments => exact hargs s hs
  | rise n => exact hends n s hs
  | whole n =>
    show P (s.wholeFrame c n)
    unfold State.wholeFrame
    split
    · exact hs
    · exact hends n _ (hopen _ hs)

/-- What those keep of a state, the part of a frame keeps. -/
theorem State.portCommand_keeps {α : Type} (g : State → α) (c : PortCommand) (part : FramePart)
    (hport : ∀ (s : State) (f : Option OpenFrame) (m : List Byte) (x : Flags),
      g (s.withPort { s.port with frame := f, mntDo := m, flags := x }) = g s)
    (heff : ∀ (shown : List Byte) (s : State), g (c.effect shown s) = g s) (s : State) :
    g (s.portCommand c part) = g s := by
  refine State.portCommand_induct (P := fun t => g t = g s) c part ?_ ?_ ?_ ?_ s rfl
  · intro t f h; rw [← h]; exact hport t f t.port.mntDo t.port.flags
  · intro t m h; rw [← h]; exact hport t none m t.port.flags
  · intro t h; rw [← h]; exact hport t t.port.frame t.port.mntDo _
  · intro shown t h; rw [← h]; exact heff shown t

/-- As many bytes are shifted out as were clocked in. -/
@[simp] theorem shiftedOut_length (a n : Nat) (reply : List Byte) : (shiftedOut a n reply).length = n + 1 := by
  simp [shiftedOut]; omega

/-- Without a reply every byte shifted out is 0. -/
theorem shiftedOut_nil (a n : Nat) : shiftedOut a n [] = List.replicate (n + 1) 0x00 := by
  rw [List.eq_replicate_iff]
  refine ⟨shiftedOut_length a n [], fun b hb => ?_⟩
  have := List.mem_of_mem_take hb
  simpa using this

/-- A whole frame of a command that is not refused, long enough: the effect, on the state with the reply shown. -/
theorem State.whole_served {s : State} {c : PortCommand} {n : Nat} (h : s.port.frame = none) (href : c.refusedIn s = false)
    (hn : c.args.length + c.replyLength ≤ n) (hrep : ∀ f, c.reply (s.withPort { s.port with frame := f }) = c.reply s) :
    s.portCommand c (.whole n) =
      c.effect (c.reply s) (s.withPort { s.port with mntDo := shiftedOut c.args.length n (c.reply s) }) := by
  have ha : c.args.length ≤ n := by omega
  simp only [State.portCommand, State.wholeFrame, State.commandByte, h, Option.isSome_none, Bool.false_eq_true, if_false,
    State.frameEnds, PortCommand.risesOn, ha, if_true]
  simp only [href, PortCommand.replyUnless, Bool.false_eq_true, if_false]
  cases hargs : c.args with
  | nil =>
    have hlen : c.replyLength ≤ n := by rw [hargs] at hn; simpa using hn
    simp [State.argumentBytes, hargs, PortCommand.complete, hlen, State.withPort]
  | cons a l =>
    have hlen : l.length + 1 + c.replyLength ≤ n := by rw [hargs] at hn; simpa using hn
    simp [State.argumentBytes, hargs, PortCommand.complete, hlen, PortCommand.replyUnless, hrep]
    rw [← h]
    rfl

/-- The same on a READY port, for a command of the table. -/
theorem State.whole_ready {s : State} {c : PortCommand} {n : Nat} (h : s.port.frame = none) (hb : s.port.busy = false)
    (ht : c.inTable = true) (hn : c.args.length + c.replyLength ≤ n)
    (hrep : ∀ f, c.reply (s.withPort { s.port with frame := f }) = c.reply s) :
    s.portCommand c (.whole n) =
      c.effect (c.reply s) (s.withPort { s.port with mntDo := shiftedOut c.args.length n (c.reply s) }) :=
  State.whole_served h (by simp [PortCommand.refusedIn, ht, hb]) hn hrep

/-- A whole frame of a command that is refused: 0x00 throughout, and CMD_DROPPED. -/
theorem State.whole_refused {s : State} {c : PortCommand} (n : Nat) (h : s.port.frame = none) (hr : c.refusedIn s = true) :
    s.portCommand c (.whole n) =
      (s.withPort { s.port with mntDo := List.replicate (n + 1) 0x00 }).raise .cmdDropped := by
  have hp : ∀ m, ({ s.port with frame := none, mntDo := m } : Port) = { s.port with mntDo := m } := by
    intro m; cases hq : s.port; simp_all
  rw [← shiftedOut_nil c.args.length n]
  simp only [State.portCommand, State.wholeFrame, State.commandByte, h, Option.isSome_none, Bool.false_eq_true, if_false,
    State.frameEnds, PortCommand.risesOn, hr, PortCommand.replyUnless, if_true]
  cases hargs : c.args with
  | nil => simp [State.argumentBytes, hargs, State.withPort]
  | cons a l =>
    by_cases hn : l.length + 1 ≤ n
    · simp [State.argumentBytes, hargs, hn, PortCommand.replyUnless, State.withPort]
    · simp [hn, State.withPort]

/-- A whole frame that is too short for its command: CMD_DROPPED and nothing else. -/
theorem State.whole_short {s : State} {c : PortCommand} {n : Nat} (h : s.port.frame = none)
    (hn : n < c.args.length + c.replyLength) :
    ∃ m : List Byte, m.length = n + 1
      ∧ s.portCommand c (.whole n) = (s.withPort { s.port with mntDo := m }).raise .cmdDropped := by
  have hc : ∀ f : OpenFrame, c.complete f n = false := by intro f; simp [PortCommand.complete]; omega
  simp only [State.portCommand, State.wholeFrame, State.commandByte, h, Option.isSome_none, Bool.false_eq_true, if_false,
    State.frameEnds, PortCommand.risesOn]
  cases hargs : c.args with
  | nil =>
    refine ⟨_, shiftedOut_length 0 n (((c.replyUnless (c.refusedIn s) s)).getD []), ?_⟩
    simp [State.argumentBytes, hargs, State.withPort, hc]
  | cons a l =>
    by_cases hl : l.length + 1 ≤ n
    · refine ⟨_, shiftedOut_length (l.length + 1) n
        (((c.replyUnless (c.refusedIn s)
          (s.withPort
            { s.port with
              frame := some { code := c.code, args := none, refused := c.refusedIn s, reply := none } }))).getD []), ?_⟩
      simp [State.argumentBytes, hargs, hl, State.withPort, hc]
    · refine ⟨_, shiftedOut_length (l.length + 1) n [], ?_⟩
      simp [hl, State.withPort, hc]

end Sys2Proof.Machine
end

