-- ==== Sys2Proof/Laws/Slots.lean ====
section
/-! SUPPORT. What the operations on tables of positions do, position by position, and what the choices among positions pick. -/

namespace Sys2Proof.Machine

variable {α β : Type} {n : Nat}

/-! ### Operations, read at one position -/

@[simp] theorem getElem_mapSlots (f : α → β) (v : Vector α n) (i : Nat) (h : i < n) : (mapSlots f v)[i] = f v[i] := by
  simp [mapSlots, Vector.getElem_mk]

@[simp] theorem getElem_mapEntries (f : α → α) (v : Vector (Option α) n) (i : Nat) (h : i < n) :
    (mapEntries f v)[i] = v[i].map f := by
  simp [mapEntries]

@[simp] theorem getElem_dropEntries (p : α → Bool) (v : Vector (Option α) n) (i : Nat) (h : i < n) :
    (dropEntries p v)[i] = v[i].filter fun e => !p e := by
  simp [dropEntries]

/-- `mapEntries` at a position of the table. -/
theorem mapEntries_at (f : α → α) (v : Vector (Option α) n) (i : Fin n) : (mapEntries f v)[i] = v[i].map f :=
  getElem_mapEntries f v i i.isLt

/-- `dropEntries` at a position of the table. -/
theorem dropEntries_at (p : α → Bool) (v : Vector (Option α) n) (i : Fin n) :
    (dropEntries p v)[i] = v[i].filter fun e => !p e :=
  getElem_dropEntries p v i i.isLt

/-- A position after one position was set. -/
theorem getElem_setSlot (v : Vector α n) (i j : Fin n) (x : α) :
    (v.set i x)[j] = if j = i then x else v[j] := by
  simp only [Fin.getElem_fin, Vector.getElem_set, Fin.ext_iff, eq_comm]

theorem getElem_setSlot_self (v : Vector α n) (i : Fin n) (x : α) : (v.set i x)[i] = x := by
  simp

theorem getElem_setSlot_ne (v : Vector α n) {i j : Fin n} (x : α) (h : j ≠ i) : (v.set i x)[j] = v[j] := by
  rw [getElem_setSlot, if_neg h]

/-- A position after the entry at one position was changed. -/
theorem getElem_updateAt (v : Vector (Option α) n) (i j : Fin n) (f : α → α) :
    (updateAt v i f)[j] = if j = i then v[i].map f else v[j] := by
  rw [updateAt, getElem_setSlot]

theorem getElem_updateAt_self (v : Vector (Option α) n) (i : Fin n) (f : α → α) :
    (updateAt v i f)[i] = v[i].map f := by
  rw [getElem_updateAt, if_pos rfl]

theorem getElem_updateAt_ne (v : Vector (Option α) n) {i j : Fin n} (f : α → α) (h : j ≠ i) :
    (updateAt v i f)[j] = v[j] := by
  rw [getElem_updateAt, if_neg h]

/-- Two tables that agree at every position are equal. -/
theorem slots_ext {v w : Vector α n} (h : ∀ i : Fin n, v[i] = w[i]) : v = w :=
  Vector.ext fun i hi => h ⟨i, hi⟩

/-! ### Finding -/

/-- What a search found satisfies the test, and nothing before it does. -/
theorem findEntry_some {p : α → Bool} {v : Vector (Option α) n} {i : Fin n} (h : findEntry p v = some i) :
    ∃ e, v[i] = some e ∧ p e = true := by
  have h' := List.find?_some h
  simpa [Option.any_eq_true] using h'

/-- A search that finds nothing: no entry satisfies the test. -/
theorem findEntry_none {p : α → Bool} {v : Vector (Option α) n} :
    findEntry p v = none ↔ ∀ (i : Fin n) e, v[i] = some e → p e = false := by
  simp only [findEntry, List.find?_eq_none, List.mem_finRange, true_implies]
  constructor
  · intro h i e he
    have := h i
    rw [he] at this
    simpa using this
  · intro h i
    cases he : v[i] with
    | none => simp
    | some e => simp [h i e he]

/-- Where one position alone satisfies the test, the search finds it. -/
theorem findEntry_unique {p : α → Bool} {v : Vector (Option α) n} {i : Fin n} {e : α} (he : v[i] = some e) (hp : p e = true)
    (hu : ∀ (j : Fin n) f, v[j] = some f → p f = true → j = i) : findEntry p v = some i := by
  cases h : findEntry p v with
  | none => rw [findEntry_none.mp h i e he] at hp; cases hp
  | some j =>
    obtain ⟨f, hf, hpf⟩ := findEntry_some h
    rw [hu j f hf hpf]

theorem lowestFree_some {v : Vector (Option α) n} {i : Fin n} (h : lowestFree v = some i) : v[i] = none := by
  simpa using List.find?_some h

theorem lowestFree_none {v : Vector (Option α) n} : lowestFree v = none ↔ ∀ i : Fin n, v[i] ≠ none := by
  simp [lowestFree, List.find?_eq_none]

/-- The lowest free index is below every other free one. -/
theorem lowestFree_le {v : Vector (Option α) n} {i j : Fin n} (h : lowestFree v = some i) (hj : v[j] = none) : i ≤ j := by
  by_contra hc
  have hlt : j < i := lt_of_not_ge hc
  rw [lowestFree, List.find?_eq_some_iff_getElem] at h
  obtain ⟨-, k, hk, hki, hbefore⟩ := h
  have hkv : k = i.val := by
    have := congrArg Fin.val hki
    simpa using this
  have := hbefore j.val (by rw [hkv]; exact hlt)
  simp [hj] at this

/-- A free index below which every position is held is the lowest free one. -/
theorem lowestFree_eq {v : Vector (Option α) n} {i : Fin n} (hi : v[i] = none) (hb : ∀ j : Fin n, j < i → v[j] ≠ none) :
    lowestFree v = some i := by
  cases h : lowestFree v with
  | none => exact absurd hi (lowestFree_none.mp h i)
  | some k =>
    have hle := lowestFree_le h hi
    by_contra hne
    have hlt : k < i := lt_of_le_of_ne hle fun e => hne (by rw [e])
    exact hb k hlt (lowestFree_some h)

/-! ### Counting -/

/-- Position by position: the entries held. -/
theorem heldCount_eq_card (v : Vector (Option α) n) :
    heldCount v = (Finset.univ.filter fun i : Fin n => v[i].isSome = true).card := by
  rw [heldCount, List.countP_eq_length_filter, ← List.toFinset_card_of_nodup ((List.nodup_finRange n).filter _)]
  congr 1
  ext i
  simp

/-- Filling a free position raises the count by one. -/
theorem heldCount_set_some {v : Vector (Option α) n} {i : Fin n} (hi : v[i] = none) (x : α) :
    heldCount (v.set i (some x)) = heldCount v + 1 := by
  classical
  rw [heldCount_eq_card, heldCount_eq_card, ← Finset.card_insert_of_notMem (a := i) (by rw [Finset.mem_filter, hi]; simp)]
  congr 1
  ext j
  simp only [Finset.mem_filter, Finset.mem_univ, true_and, Finset.mem_insert, getElem_setSlot]
  by_cases h : j = i
  · simp [h]
  · simp [h]

/-- Freeing a held position lowers the count by one. -/
theorem heldCount_set_none {v : Vector (Option α) n} {i : Fin n} {e : α} (hi : v[i] = some e) :
    heldCount (v.set i none) + 1 = heldCount v := by
  classical
  have h := heldCount_set_some (v := v.set i none) (i := i) (getElem_setSlot_self v i none) e
  rw [← h]
  congr 1
  apply slots_ext
  intro j
  simp only [getElem_setSlot]
  by_cases hj : j = i
  · subst hj; simp [hi]
  · simp [hj]

/-- A change that keeps every position held or free keeps the count. -/
theorem heldCount_congr {v w : Vector (Option α) n} (h : ∀ i : Fin n, v[i].isSome = w[i].isSome) :
    heldCount v = heldCount w := by
  simp only [heldCount, h]

@[simp] theorem heldCount_updateAt (v : Vector (Option α) n) (i : Fin n) (f : α → α) :
    heldCount (updateAt v i f) = heldCount v := by
  apply heldCount_congr
  intro j
  rw [getElem_updateAt]
  split
  · next h => subst h; simp
  · rfl

@[simp] theorem heldCount_mapEntries (v : Vector (Option α) n) (f : α → α) : heldCount (mapEntries f v) = heldCount v := by
  apply heldCount_congr
  intro j
  rw [mapEntries_at, Option.isSome_map]

theorem heldCount_le (v : Vector (Option α) n) : heldCount v ≤ n := by
  rw [heldCount]
  exact le_trans List.countP_le_length (by simp)

/-! ### The greatest score -/

/-- One step of the choice: the later of two indices is taken only where its score is greater. -/
def better (score : Fin n → Option Int) (best : Option (Fin n × Int)) (i : Fin n) : Option (Fin n × Int) :=
  match score i, best with
  | none, _ => best
  | some a, none => some (i, a)
  | some a, some (k, b) => if b < a then some (i, a) else some (k, b)

theorem pickGreatest_eq (score : Fin n → Option Int) :
    pickGreatest score = (List.finRange n).foldl (better score) none := rfl

/-- What a choice along a strictly rising list of indices keeps: the pick is the first of the greatest scores seen. -/
theorem better_foldl (score : Fin n → Option Int) (l : List (Fin n)) (best : Option (Fin n × Int))
    (hl : l.Pairwise (· < ·)) (hb : ∀ k b, best = some (k, b) → ∀ i ∈ l, k < i) :
    match l.foldl (better score) best with
    | none => best = none ∧ ∀ i ∈ l, score i = none
    | some (k, a) =>
      (best = some (k, a) ∨ (k ∈ l ∧ score k = some a))
        ∧ (∀ j b, best = some (j, b) → b ≤ a ∧ (b = a → k = j))
        ∧ ∀ i ∈ l, ∀ b, score i = some b → b ≤ a ∧ (b = a → k ≤ i) := by
  induction l generalizing best with
  | nil =>
    cases best with
    | none => simp
    | some kb => obtain ⟨k, b⟩ := kb; simp
  | cons x xs ih =>
    rw [List.foldl_cons]
    have hx := List.pairwise_cons.mp hl
    have hstep : ∀ k b, better score best x = some (k, b) → ∀ i ∈ xs, k < i := by
      intro k b hkb i hi
      unfold better at hkb
      split at hkb
      · exact hb k b hkb i (List.mem_cons_of_mem _ hi)
      · cases hkb; exact hx.1 i hi
      · split at hkb
        · cases hkb; exact hx.1 i hi
        · cases hkb; exact hb k b rfl i (List.mem_cons_of_mem _ hi)
    have h := ih (better score best x) hx.2 hstep
    generalize hr : xs.foldl (better score) (better score best x) = r at h ⊢
    cases r with
    | none =>
      obtain ⟨h1, h2⟩ := h
      unfold better at h1
      cases hs : score x with
      | none =>
        rw [hs] at h1
        exact ⟨h1, by simpa [hs] using h2⟩
      | some a =>
        rw [hs] at h1
        cases hbest : best with
        | none => rw [hbest] at h1; cases h1
        | some kb => obtain ⟨k, b⟩ := kb; rw [hbest] at h1; simp only at h1; split at h1 <;> cases h1
    | some ka =>
      obtain ⟨k, a⟩ := ka
      obtain ⟨h1, h2, h3⟩ := h
      cases hs : score x with
      | none =>
        have hbe : better score best x = best := by simp [better, hs]
        rw [hbe] at h1 h2
        refine ⟨?_, h2, ?_⟩
        · rcases h1 with h1 | h1
          · exact .inl h1
          · exact .inr ⟨List.mem_cons_of_mem _ h1.1, h1.2⟩
        · intro i hi b hib
          rcases List.mem_cons.mp hi with rfl | hi
          · rw [hs] at hib; cases hib
          · exact h3 i hi b hib
      | some c =>
        cases hbest : best with
        | none =>
          have hbe : better score best x = some (x, c) := by simp [better, hs, hbest]
          rw [hbe] at h1 h2
          have hxc := h2 x c rfl
          refine ⟨.inr ?_, by simp, ?_⟩
          · rcases h1 with h1 | h1
            · cases h1; exact ⟨List.mem_cons_self .., hs⟩
            · exact ⟨List.mem_cons_of_mem _ h1.1, h1.2⟩
          · intro i hi b hib
            rcases List.mem_cons.mp hi with rfl | hi
            · rw [hs] at hib; cases hib; exact ⟨hxc.1, fun e => (hxc.2 e).le⟩
            · exact h3 i hi b hib
        | some jb =>
          obtain ⟨j, b⟩ := jb
          have hjx : j < x := hb j b hbest x (List.mem_cons_self ..)
          by_cases hlt : b < c
          · have hbe : better score best x = some (x, c) := by simp [better, hs, hbest, hlt]
            rw [hbe] at h1 h2
            have hxc := h2 x c rfl
            refine ⟨.inr ?_, ?_, ?_⟩
            · rcases h1 with h1 | h1
              · cases h1; exact ⟨List.mem_cons_self .., hs⟩
              · exact ⟨List.mem_cons_of_mem _ h1.1, h1.2⟩
            · intro j' b' hjb
              cases hjb
              exact ⟨by omega, fun e => absurd e (by omega)⟩
            · intro i hi b' hib
              rcases List.mem_cons.mp hi with rfl | hi
              · rw [hs] at hib; cases hib; exact ⟨hxc.1, fun e => (hxc.2 e).le⟩
              · exact h3 i hi b' hib
          · have hbe : better score best x = some (j, b) := by simp [better, hs, hbest, hlt]
            rw [hbe] at h1 h2
            have hjb := h2 j b rfl
            refine ⟨?_, ?_, ?_⟩
            · rcases h1 with h1 | h1
              · exact .inl h1
              · exact .inr ⟨List.mem_cons_of_mem _ h1.1, h1.2⟩
            · intro j' b' hjb'
              cases hjb'
              exact hjb
            · intro i hi b' hib
              rcases List.mem_cons.mp hi with rfl | hi
              · rw [hs] at hib
                cases hib
                exact ⟨by omega, fun e => by rw [hjb.2 (by omega)]; exact hjx.le⟩
              · exact h3 i hi b' hib

/-- No pick: no index has a score. -/
theorem pickGreatest_none {score : Fin n → Option Int} : pickGreatest score = none ↔ ∀ i, score i = none := by
  have h := better_foldl score (List.finRange n) none (List.pairwise_lt_finRange n) (by simp)
  rw [pickGreatest_eq]
  generalize hr : (List.finRange n).foldl (better score) none = r at h
  cases r with
  | none => simpa using h
  | some ka =>
    obtain ⟨k, a⟩ := ka
    simp only [reduceCtorEq, List.mem_finRange, true_and, false_or] at h
    constructor
    · intro hc; cases hc
    · intro hc; rw [hc k] at h; exact absurd h.1 (by simp)

/-- The pick has the greatest score, and of equal scores the lowest index. -/
theorem pickGreatest_some {score : Fin n → Option Int} {k : Fin n} {a : Int} (hp : pickGreatest score = some (k, a)) :
    score k = some a ∧ ∀ i b, score i = some b → b ≤ a ∧ (b = a → k ≤ i) := by
  have h := better_foldl score (List.finRange n) none (List.pairwise_lt_finRange n) (by simp)
  rw [pickGreatest_eq] at hp
  rw [hp] at h
  simp only [reduceCtorEq, List.mem_finRange, true_and, false_or, true_implies] at h
  exact ⟨h.1, h.2.2⟩

/-- Where an index has the greatest score and no lower index shares it, it is the pick. -/
theorem pickGreatest_eq_some {score : Fin n → Option Int} {k : Fin n} {a : Int} (hk : score k = some a)
    (hmax : ∀ i b, score i = some b → b ≤ a ∧ (b = a → k ≤ i)) : pickGreatest score = some (k, a) := by
  cases h : pickGreatest score with
  | none => rw [pickGreatest_none.mp h k] at hk; cases hk
  | some ja =>
    obtain ⟨j, b⟩ := ja
    obtain ⟨h1, h2⟩ := pickGreatest_some h
    have e1 := hmax j b h1
    have e2 := h2 k a hk
    have hab : b = a := le_antisymm e1.1 e2.1
    subst hab
    have : j = k := le_antisymm (e2.2 rfl) (e1.2 rfl)
    rw [this]

end Sys2Proof.Machine
end

