-- ==== Sys2Proof/Laws/Evaluate.lean ====
section
/-! SUPPORT. What an evaluation reads, what it makes of an entry, and what the operations that evaluate do to the roster. -/

namespace Sys2Proof.Machine

/-! ### What an evaluation reads -/

/-- Two states show an evaluation the same: site time, image, hold mode, listen-only, pin list, neighbours and hearings. -/
structure SameView (s t : State) : Prop where
  now : t.now = s.now
  image : t.loader.image = s.loader.image
  hold : t.port.hold = s.port.hold
  listenOnly : t.port.listenOnly = s.port.listenOnly
  pins : t.roster.pins = s.roster.pins
  hearing : t.hearing = s.hearing

theorem SameView.refl (s : State) : SameView s s := ⟨rfl, rfl, rfl, rfl, rfl, rfl⟩

theorem SameView.symm {s t : State} (h : SameView s t) : SameView t s :=
  ⟨h.1.symm, h.2.symm, h.3.symm, h.4.symm, h.5.symm, h.6.symm⟩

theorem SameView.trans {s t u : State} (h : SameView s t) (k : SameView t u) : SameView s u :=
  ⟨k.1.trans h.1, k.2.trans h.2, k.3.trans h.3, k.4.trans h.4, k.5.trans h.5, k.6.trans h.6⟩

theorem par_congr {s t : State} (h : t.loader.image = s.loader.image) : t.par = s.par := by
  funext p; simp only [State.par, h]

theorem SameView.par {s t : State} (h : SameView s t) : t.par = s.par := par_congr h.image

theorem SameView.inRescue {s t : State} (h : SameView s t) (e : RosterEntry) : t.inRescue e = s.inRescue e := by
  simp only [State.inRescue, h.par]

theorem SameView.eligible {s t : State} (h : SameView s t) (e : RosterEntry) (n : Fin 8) :
    t.eligible e n = s.eligible e n := by
  unfold State.eligible; rw [h.hearing]

theorem SameView.bestNeighbour {s t : State} (h : SameView s t) (e : RosterEntry) :
    t.bestNeighbour e = s.bestNeighbour e := by
  unfold State.bestNeighbour
  congr 1
  funext n
  unfold State.adjustedLevel; rw [h.eligible, h.hearing]

theorem SameView.advantage {s t : State} (h : SameView s t) (e : RosterEntry) : t.advantage e = s.advantage e := by
  simp only [State.advantage, h.bestNeighbour]

theorem SameView.meetsMargin {s t : State} (h : SameView s t) (e : RosterEntry) : t.meetsMargin e = s.meetsMargin e := by
  unfold State.meetsMargin State.hysteresisToward State.doubled
  rw [h.bestNeighbour, h.par, h.inRescue, h.hearing]

theorem SameView.candidate {s t : State} (h : SameView s t) (e : RosterEntry) : t.candidate e = s.candidate e := by
  unfold State.candidate
  rw [h.meetsMargin, h.inRescue, h.hold, h.listenOnly, h.pins]

theorem SameView.evaluated {s t : State} (h : SameView s t) (e : RosterEntry) : t.evaluated e = s.evaluated e := by
  simp only [State.evaluated, State.dwellFor, State.due, h.candidate, h.inRescue, h.par, h.now]

theorem SameView.evaluatedTo {s t : State} (h : SameView s t) {e f : RosterEntry} (k : EvaluatedTo s e f) :
    EvaluatedTo t e f where
  others := k.others
  notMet := fun hc => k.notMet (by rw [← h.candidate]; exact hc)
  starts := fun hc => by
    rw [h.candidate] at hc
    simp only [State.due, State.dwellFor, h.now, h.inRescue, h.par]
    exact k.starts hc
  keeps := fun hc => k.keeps (by rw [← h.candidate]; exact hc)

/-- The roster's entries and every block that an evaluation does not read may change. -/
theorem SameView.of_roster {s t : State} (h : t.now = s.now) (hi : t.loader = s.loader) (hh : t.port.hold = s.port.hold)
    (hl : t.port.listenOnly = s.port.listenOnly) (hp : t.roster.pins = s.roster.pins) (hg : t.hearing = s.hearing) :
    SameView s t := ⟨h, by rw [hi], hh, hl, hp, hg⟩

/-! ### What it makes of an entry -/

/-- An entry in a state other than HOMED is not evaluated. -/
theorem State.evaluated_other (s : State) {e : RosterEntry} (h : e.state ≠ .homed) : s.evaluated e = e := by
  simp [State.evaluated, h]

/-- A HOMED entry follows the table of R91. -/
theorem State.evaluated_homed (s : State) {e : RosterEntry} (h : e.state = .homed) : EvaluatedTo s e (s.evaluated e) := by
  unfold State.evaluated
  rw [if_neg (by simpa using h)]
  cases hc : s.candidate e
  · exact ⟨by simp, fun _ => by simp, fun hc' => by simp [hc] at hc', fun hc' => by simp [hc] at hc'⟩
  · simp only [Bool.not_true, Bool.false_eq_true, if_false]
    by_cases hd : (e.dwell.isSome || e.askReady) = true
    · rw [if_pos hd]
      exact ⟨by simp, fun hc' => by simp [hc] at hc', fun _ h1 h2 => by simp [h1, h2] at hd, fun _ _ => ⟨rfl, rfl⟩⟩
    · rw [if_neg hd]
      refine ⟨by simp, fun hc' => by simp [hc] at hc', fun _ _ h2 => ⟨rfl, h2⟩, fun _ h' => ?_⟩
      rcases h' with h' | h' <;> simp [h'] at hd

@[simp] theorem State.evaluated_radio (s : State) (e : RosterEntry) : (s.evaluated e).radio = e.radio := by
  unfold State.evaluated; (repeat' split) <;> rfl
@[simp] theorem State.evaluated_state (s : State) (e : RosterEntry) : (s.evaluated e).state = e.state := by
  unfold State.evaluated; (repeat' split) <;> rfl
@[simp] theorem State.evaluated_f (s : State) (e : RosterEntry) : (s.evaluated e).f = e.f := by
  unfold State.evaluated; (repeat' split) <;> rfl

/-! ### What the operations do to the roster -/

@[simp] theorem State.updateEntry_pins (i : Fin 64) (f : RosterEntry → RosterEntry) (s : State) :
    (s.updateEntry i f).roster.pins = s.roster.pins := rfl
@[simp] theorem State.evalAt_pins (i : Fin 64) (s : State) : (s.evalAt i).roster.pins = s.roster.pins := rfl
@[simp] theorem State.evalRadios_pins (p : Radio → Bool) (s : State) : (s.evalRadios p).roster.pins = s.roster.pins := rfl
@[simp] theorem State.evalAll_pins (s : State) : s.evalAll.roster.pins = s.roster.pins := rfl

theorem State.updateEntry_at (i j : Fin 64) (f : RosterEntry → RosterEntry) (s : State) :
    (s.updateEntry i f).roster.entries[j] = if j = i then s.roster.entries[i].map f else s.roster.entries[j] :=
  getElem_updateAt _ i j f

theorem State.evalAt_at (i j : Fin 64) (s : State) :
    (s.evalAt i).roster.entries[j] =
      if j = i then s.roster.entries[i].map s.evaluated else s.roster.entries[j] :=
  getElem_updateAt _ i j _

theorem State.evalRadios_at (p : Radio → Bool) (s : State) (j : Fin 64) :
    (s.evalRadios p).roster.entries[j] =
      s.roster.entries[j].map fun e => if p e.radio then s.evaluated e else e :=
  mapEntries_at _ _ j

theorem State.evalAll_at (s : State) (j : Fin 64) : s.evalAll.roster.entries[j] = s.roster.entries[j].map s.evaluated :=
  mapEntries_at _ _ j

theorem SameView.updateEntry (i : Fin 64) (f : RosterEntry → RosterEntry) (s : State) : SameView s (s.updateEntry i f) :=
  ⟨rfl, rfl, rfl, rfl, rfl, rfl⟩
theorem SameView.evalAt (i : Fin 64) (s : State) : SameView s (s.evalAt i) := ⟨rfl, rfl, rfl, rfl, rfl, rfl⟩
theorem SameView.evalRadios (p : Radio → Bool) (s : State) : SameView s (s.evalRadios p) := ⟨rfl, rfl, rfl, rfl, rfl, rfl⟩
theorem SameView.evalAll (s : State) : SameView s s.evalAll := ⟨rfl, rfl, rfl, rfl, rfl, rfl⟩

/-- From `s` to `t` the entry at `i` becomes the evaluation of `before`. -/
theorem EntryBecomes.of_evaluated {s t : State} {i : Fin 64} {before : RosterEntry} (hp : t.roster.pins = s.roster.pins)
    (ho : ∀ j : Fin 64, j ≠ i → t.roster.entries[j] = s.roster.entries[j])
    (he : t.roster.entries[i] = some (t.evaluated before)) : EntryBecomes s t i before where
  pins := hp
  others := ho
  entry := ⟨_, he, fun h => t.evaluated_homed h, fun h => t.evaluated_other h⟩

/-- A change of entry depends on the roster and on what an evaluation reads. -/
theorem EntryBecomes.of_blocks {s s' t u : State} {i : Fin 64} {before : RosterEntry} (h : EntryBecomes s t i before)
    (hs : s'.roster = s.roster) (hr : u.roster = t.roster) (hv : SameView t u) : EntryBecomes s' u i before where
  pins := by rw [hr, hs]; exact h.pins
  others := by rw [hr, hs]; exact h.others
  entry := by
    obtain ⟨after, h1, h2, h3⟩ := h.entry
    exact ⟨after, by rw [hr]; exact h1, fun hh => hv.evaluatedTo (h2 hh), h3⟩

/-- Counting an event changes nothing that an evaluation reads. -/
theorem SameView.bump (c : Counter) (s : State) : SameView s (s.bump c) := ⟨rfl, rfl, rfl, rfl, rfl, rfl⟩

/-- Changing the entry at `i` and evaluating it. -/
theorem EntryBecomes.update_eval {s : State} {i : Fin 64} {e : RosterEntry} (h : s.roster.entries[i] = some e)
    (f : RosterEntry → RosterEntry) : EntryBecomes s ((s.updateEntry i f).evalAt i) i (f e) := by
  refine EntryBecomes.of_evaluated rfl (fun j hj => ?_) ?_
  · rw [State.evalAt_at, if_neg hj, State.updateEntry_at, if_neg hj]
  · rw [State.evalAt_at, if_pos rfl, State.updateEntry_at, if_pos rfl, h]
    simp only [Option.map_some]
    rw [← ((SameView.evalAt i (s.updateEntry i f)).evaluated)]

/-- Changing the entry at `i` where it is not evaluated. -/
theorem EntryBecomes.update {s : State} {i : Fin 64} {e : RosterEntry} (h : s.roster.entries[i] = some e)
    (f : RosterEntry → RosterEntry) (hs : (f e).state ≠ .homed) : EntryBecomes s (s.updateEntry i f) i (f e) where
  pins := rfl
  others := fun j hj => by rw [State.updateEntry_at, if_neg hj]
  entry := ⟨f e, by rw [State.updateEntry_at, if_pos rfl, h]; rfl, fun hh => absurd hh hs, fun _ => rfl⟩

/-- Evaluating the HOMED entries of some radios. -/
theorem Reevaluated.evalRadios {s t : State} (p : Radio → Bool) (hr : t.roster = s.roster) :
    Reevaluated s (t.evalRadios p) (fun r => p r = true) where
  pins := by rw [State.evalRadios_pins, hr]
  free := fun i h => by rw [State.evalRadios_at, hr, h]; rfl
  entry := fun i e h => by
    refine ⟨if p e.radio then t.evaluated e else e, by rw [State.evalRadios_at, hr, h]; rfl, ?_, ?_⟩
    · rintro ⟨hh, hp⟩
      rw [if_pos hp]
      exact (SameView.evalRadios p t).evaluatedTo (t.evaluated_homed hh)
    · intro hn
      by_cases hp : p e.radio = true
      · rw [if_pos hp]
        exact t.evaluated_other fun hh => hn ⟨hh, hp⟩
      · rw [if_neg hp]

/-- Evaluating every HOMED entry. -/
theorem Reevaluated.evalAll {s t : State} (hr : t.roster = s.roster) : Reevaluated s t.evalAll (fun _ => True) where
  pins := by rw [State.evalAll_pins, hr]
  free := fun i h => by rw [State.evalAll_at, hr, h]; rfl
  entry := fun i e h => by
    refine ⟨t.evaluated e, by rw [State.evalAll_at, hr, h]; rfl, ?_, ?_⟩
    · rintro ⟨hh, -⟩
      exact (SameView.evalAll t).evaluatedTo (t.evaluated_homed hh)
    · intro hn
      exact t.evaluated_other fun hh => hn ⟨hh, trivial⟩

/-- Evaluating none. -/
theorem Reevaluated.none {s t : State} (hr : t.roster = s.roster) {p : Radio → Prop} (hp : ∀ r, ¬p r) :
    Reevaluated s t p where
  pins := by rw [hr]
  free := fun i h => by rw [hr]; exact h
  entry := fun i e h => ⟨e, by rw [hr]; exact h, fun hh => absurd hh.2 (hp _), fun _ => rfl⟩

theorem Reevaluated.congr {s t : State} {p q : Radio → Prop} (h : Reevaluated s t p) (hpq : ∀ r, p r ↔ q r) :
    Reevaluated s t q := by
  have : p = q := funext fun r => propext (hpq r)
  rw [← this]; exact h

end Sys2Proof.Machine
end

