-- ==== Sys2Proof/Laws/Hearing.lean ====
section
/-! SUPPORT. Where a pair of a HEARD frame is stored: the one place that the search of the hearing table gives. -/

namespace Sys2Proof.Machine

/-- What the search for a pair's own entry finds is such an entry, and none stands before it. -/
theorem Hearing.pairIndex_spec {n : Fin 8} {r : Radio} {h : Hearing} {j : Fin 128} (hj : h.pairIndex n r = some j) :
    (∃ x, h.table[j] = some x ∧ x.neighbour = n ∧ x.radio = r)
      ∧ ∀ (i : Fin 128) e, h.table[i] = some e → e.neighbour = n → e.radio = r → j ≤ i := by
  refine ⟨by obtain ⟨x, hx, hp⟩ := findEntry_some hj; exact ⟨x, hx, by simpa using hp⟩, fun i e he h1 h2 => ?_⟩
  by_contra hc
  simp only [Hearing.pairIndex, findEntry] at hj
  rw [List.find?_eq_some_iff_getElem] at hj
  obtain ⟨-, k, hk, hki, hb⟩ := hj
  have hkv : k = j.val := by simpa using congrArg Fin.val hki
  have := hb i.val (by rw [hkv]; exact lt_of_not_ge hc)
  simp [he, h1, h2] at this

/-- Every pair has a place, and it is the one that R82 and R83 name. -/
theorem Hearing.place_spec (now : Time) (n : Fin 8) (r : Radio) (h : Hearing) :
    ∃ j, h.place now n r = some j ∧ PairPlace now n r h.table j := by
  unfold Hearing.place
  cases hp : h.pairIndex n r with
  | some j =>
    obtain ⟨⟨x, hx, h1, h2⟩, hb⟩ := Hearing.pairIndex_spec hp
    exact ⟨j, rfl, fun i e he a b => ⟨hb i e he a b, x, hx, h1, h2⟩, fun hno => absurd ⟨h1, h2⟩ (hno j x hx),
      fun hno => absurd ⟨h1, h2⟩ (hno j x hx)⟩
  | none =>
    have hno : ∀ (i : Fin 128) e, h.table[i] = some e → ¬(e.neighbour = n ∧ e.radio = r) := fun i e he hc => by
      simpa [hc] using findEntry_none.mp hp i e he
    cases hf : lowestFree h.table with
    | some j =>
      exact ⟨j, rfl, fun i e he a b => absurd ⟨a, b⟩ (hno i e he), fun _ i hi => ⟨lowestFree_le hf hi, lowestFree_some hf⟩,
        fun _ hfull => absurd (lowestFree_some hf) (hfull j)⟩
    | none =>
      have hfull := lowestFree_none.mp hf
      cases ho : pickGreatest (fun j : Fin 128 => h.table[j].map fun e => (elapsed now e.received : Int)) with
      | none => exact absurd (by simpa using pickGreatest_none.mp ho 0) (hfull 0)
      | some ja =>
        obtain ⟨j, a⟩ := ja
        obtain ⟨k1, k2⟩ := pickGreatest_some ho
        obtain ⟨old, hold, rfl⟩ := Option.map_eq_some_iff.mp k1
        refine ⟨j, by show (pickGreatest _).map Prod.fst = _; rw [ho]; rfl, fun i e he a b => absurd ⟨a, b⟩ (hno i e he),
          fun _ i hi => absurd hi (hfull i), fun _ _ => ⟨old, hold, fun i x hx => ?_⟩⟩
        have := k2 i _ (by rw [hx]; rfl)
        simp only [elapsed] at this
        exact ⟨by omega, fun h => this.2 (by omega)⟩

end Sys2Proof.Machine
end

