-- ==== Sys2Proof/Laws/Roster.lean ====
section
/-! SUPPORT. What the operations that remove an entry, return it to HOMED or end a departure do, whole; and when the arbiter
does nothing. -/

namespace Sys2Proof.Machine

/-! ### Removal -/

/-- The roster, hearing table and neighbour records after an entry is removed. -/
theorem State.removeEntry_removed {s : State} {i : Fin 64} {e : RosterEntry} (h : s.roster.entries[i] = some e) :
    EntryRemoved s (s.removeEntry i) i e.radio := by
  have hr : (s.removeEntry i).roster = { s.roster with entries := s.roster.entries.set i none } := by
    unfold State.removeEntry; rw [h]; dsimp only; split <;> simp
  have hh : (s.removeEntry i).hearing = s.hearing.pruneRadio e.radio := by
    unfold State.removeEntry; rw [h]; dsimp only; split <;> simp
  refine ⟨by rw [hr], ?_, ?_, ?_, by rw [hh]; rfl, ?_, ?_⟩
  · rw [hr]; exact getElem_setSlot_self _ i none
  · intro j hj; rw [hr]; exact getElem_setSlot_ne _ none hj
  · unfold State.occupancy; rw [hr]; exact heldCount_set_none h
  · intro j x hx
    rw [hh, Hearing.pruneRadio]
    simp only [dropEntries_at, hx]
    by_cases hxr : x.radio = e.radio <;> simp [Option.filter, hxr]
  · intro j hx
    rw [hh, Hearing.pruneRadio]
    simp only [dropEntries_at, hx]
    rfl

/-- A removal from HOMED or EXPECTED touches neither departures nor orders. -/
theorem State.removeEntry_simple {s : State} {i : Fin 64} {e : RosterEntry} (h : s.roster.entries[i] = some e)
    (hs : e.state = .homed ∨ e.state = .expected) :
    (s.removeEntry i).nego = s.nego ∧ (s.removeEntry i).steer = s.steer := by
  unfold State.removeEntry; rw [h]
  rcases hs with hs | hs <;> simp only [hs] <;> exact ⟨rfl, rfl⟩

/-- A removal depends on the roster, the hearing table, the departures and the steer queue alone. -/
theorem EntryRemoved.of_blocks {s t u : State} {i : Fin 64} {r : Radio} (h : EntryRemoved s t i r)
    (hr : u.roster = t.roster) (hh : u.hearing = t.hearing) : EntryRemoved s u i r := by
  obtain ⟨h1, h2, h3, h4, h5, h6, h7⟩ := h
  refine ⟨by rw [hr]; exact h1, by rw [hr]; exact h2, by rw [hr]; exact h3, ?_, by rw [hh]; exact h5, by rw [hh]; exact h6,
    by rw [hh]; exact h7⟩
  unfold State.occupancy at *; rw [hr]; exact h4

/-- The departure list without a radio's record. -/
theorem RecordRemoved.of_nego {s t : State} {r : Radio}
    (hd : t.nego.departures = dropEntries (fun d => d.radio == r) s.nego.departures)
    (hq : t.nego.sequence = s.nego.sequence) : RecordRemoved s t r := by
  refine ⟨hq, ?_, ?_⟩
  · intro p d h
    rw [hd, dropEntries_at, h]
    by_cases hr : d.radio = r <;> simp [Option.filter, hr]
  · intro p h
    rw [hd, dropEntries_at, h]; rfl

theorem RecordRemoved.of_same {s t u : State} {r : Radio} (h : RecordRemoved s t r) (hn : u.nego.departures = t.nego.departures)
    (hq : u.nego.sequence = t.nego.sequence) : RecordRemoved s u r :=
  ⟨by rw [hq]; exact h.1, by rw [hn]; exact h.2, by rw [hn]; exact h.3⟩

/-- Removing a radio's records twice is removing them once. -/
theorem dropEntries_twice {α : Type} {n : Nat} (p : α → Bool) (v : Vector (Option α) n) :
    dropEntries p (dropEntries p v) = dropEntries p v := by
  apply slots_ext
  intro i
  simp only [dropEntries_at]
  cases h : v[i] with
  | none => rfl
  | some x => by_cases hx : p x = true <;> simp [Option.filter, hx]

/-- Removing a radio's order twice is removing it once. -/
theorem SteerQueue.remove_twice (r : Radio) (q : SteerQueue) : (q.remove r).remove r = q.remove r := by
  have hn : (q.remove r).holds r = false := by
    unfold SteerQueue.remove
    split
    · next h =>
      have ho : ∀ (a : Bool) (l : List SteerOrder) (q : SteerQueue), (q.present a l).orders = l := by
        intro a l q; unfold SteerQueue.present; (repeat' split) <;> rfl
      simp [SteerQueue.holds, ho]
    · next h => simpa using h
  rw [SteerQueue.remove, if_neg (by rw [hn]; simp)]

/-! ### The arbiter with nothing to choose -/

theorem State.noneAskReady_iff {s : State} :
    s.noneAskReady = true ↔ ∀ (i : Fin 64) e, s.roster.entries[i] = some e → e.askReady = false := by
  simp only [State.noneAskReady, List.all_eq_true, List.mem_finRange, true_implies]
  constructor
  · intro h i e he; have := h i; rw [he] at this; simpa using this
  · intro h i
    cases he : s.roster.entries[i] with
    | none => rfl
    | some e => simp [h i e he]

/-- Without an ask-ready entry the arbiter does nothing. -/
theorem State.arbiter_none {s : State} (h : s.noneAskReady = true) : s.arbiter = s := by
  have hc : s.arbiterChoice = none := by
    unfold State.arbiterChoice
    rw [Option.map_eq_none_iff, pickGreatest_none]
    intro i
    cases he : s.roster.entries[i] with
    | none => rfl
    | some e => simp [State.noneAskReady_iff.mp h i e he]
  simp only [State.arbiter, hc]

/-- An evaluation makes no entry ask-ready. -/
theorem State.evaluated_askReady (s : State) {e : RosterEntry} (h : e.askReady = false) : (s.evaluated e).askReady = false := by
  unfold State.evaluated; (repeat' split) <;> first | exact h | rfl

theorem State.noneAskReady_update {s : State} (h : s.noneAskReady = true) (i : Fin 64) {f : RosterEntry → RosterEntry}
    (hf : ∀ e, e.askReady = false → (f e).askReady = false) : (s.updateEntry i f).noneAskReady = true := by
  rw [State.noneAskReady_iff] at h ⊢
  intro j e he
  rw [State.updateEntry_at] at he
  split at he
  · obtain ⟨x, hx, rfl⟩ := Option.map_eq_some_iff.mp he
    exact hf x (h i x hx)
  · exact h j e he

theorem State.noneAskReady_evalAt {s : State} (h : s.noneAskReady = true) (i : Fin 64) : (s.evalAt i).noneAskReady = true :=
  State.noneAskReady_update h i fun _ he => s.evaluated_askReady he

/-- Which entries are ask-ready depends on the roster alone. -/
theorem State.noneAskReady_congr {s t : State} (h : t.roster = s.roster) : t.noneAskReady = s.noneAskReady := by
  simp only [State.noneAskReady, h]

/-! ### Departures that end -/

@[simp] theorem State.returned_eq_backHome (s : State) (n : Fin 8) (e : RosterEntry) : s.returned n e = s.backHome n e := rfl

/-- A return to HOMED: the entry, the record, the order. -/
theorem State.revert_spec {s : State} {d : Departure} {e : RosterEntry} (h : s.roster.entries[d.rosterIndex] = some e) :
    EntryBecomes s (s.revert d) d.rosterIndex (s.backHome d.target e) ∧ RecordRemoved s (s.revert d) d.radio
      ∧ (s.revert d).nego.last = s.nego.last ∧ (s.revert d).nego.previous = s.nego.previous
      ∧ (s.revert d).steer = (if d.phase = .leaving then s.steer.remove d.radio else s.steer)
      ∧ (s.noneAskReady = true → (s.revert d).noneAskReady = true) := by
  let u : State := if d.phase = .leaving then (s.dropDeparture d.radio).removeOrder d.radio else s.dropDeparture d.radio
  have hu : s.revert d = (u.updateEntry d.rosterIndex (s.returned d.target)).evalAt d.rosterIndex := rfl
  have hur : u.roster = s.roster := by simp only [u]; split <;> simp
  have hun : u.nego = (s.dropDeparture d.radio).nego := by simp only [u]; split <;> simp
  have hue : u.roster.entries[d.rosterIndex] = some e := by rw [hur]; exact h
  have hb := EntryBecomes.update_eval hue (s.returned d.target)
  rw [← hu] at hb
  refine ⟨⟨by rw [hb.pins, hur], fun j hj => by rw [hb.others j hj, hur], hb.entry⟩, ?_, ?_, ?_, ?_, ?_⟩
  · exact RecordRemoved.of_nego (by rw [hu]; simp only [State.evalAt_nego, State.updateEntry_nego, hun]; rfl)
      (by rw [hu]; simp only [State.evalAt_nego, State.updateEntry_nego, hun]; rfl)
  · rw [hu]; simp only [State.evalAt_nego, State.updateEntry_nego, hun]; rfl
  · rw [hu]; simp only [State.evalAt_nego, State.updateEntry_nego, hun]; rfl
  · rw [hu]; simp only [State.evalAt_steer, State.updateEntry_steer, u]; split <;> rfl
  · intro hn
    rw [hu]
    refine State.noneAskReady_evalAt (State.noneAskReady_update ?_ _ fun _ _ => rfl) _
    rw [State.noneAskReady_congr hur]; exact hn

/-- A handset that has gone, no entry being ask-ready. -/
theorem State.depart_spec {s : State} {i : Fin 64} {e : RosterEntry} {site : Byte} {o : Departed}
    (h : s.roster.entries[i] = some e) (hn : s.noneAskReady = true) :
    EntryRemoved s (s.depart i e.radio site o) i e.radio ∧ RecordRemoved s (s.depart i e.radio site o) e.radio
      ∧ (s.depart i e.radio site o).nego.last = some { radio := e.radio, toSite := site, stamp := s.now, outcome := o }
      ∧ (s.depart i e.radio site o).nego.previous = s.nego.last
      ∧ (s.depart i e.radio site o).steer = s.steer.remove e.radio
      ∧ (s.depart i e.radio site o).port = s.port ∧ (s.depart i e.radio site o).link = s.link := by
  let g : State := (((s.removeEntry i).dropDeparture e.radio).removeOrder e.radio).record e.radio site o
  have hrem := State.removeEntry_removed h
  have hg : g.noneAskReady = true := by
    rw [State.noneAskReady_iff] at hn ⊢
    intro j x hx
    by_cases hj : j = i
    · subst hj
      have : g.roster.entries[j] = none := hrem.position
      rw [this] at hx; cases hx
    · have : g.roster.entries[j] = s.roster.entries[j] := hrem.others j hj
      rw [this] at hx; exact hn j x hx
  have hd : s.depart i e.radio site o = g := by
    unfold State.depart; dsimp only; split
    · exact State.arbiter_none hg
    · rfl
  have hdep : (s.removeEntry i).nego.departures = s.nego.departures
      ∨ (s.removeEntry i).nego.departures = dropEntries (fun d => d.radio == e.radio) s.nego.departures := by
    unfold State.removeEntry; rw [h]; dsimp only; split
    · exact .inl rfl
    · exact .inl rfl
    · exact .inr rfl
    · exact .inr rfl
  have hseq : (s.removeEntry i).nego.sequence = s.nego.sequence ∧ (s.removeEntry i).nego.last = s.nego.last := by
    unfold State.removeEntry; rw [h]; dsimp only; split <;> exact ⟨rfl, rfl⟩
  have hst : (s.removeEntry i).steer = s.steer ∨ (s.removeEntry i).steer = s.steer.remove e.radio := by
    unfold State.removeEntry; rw [h]; dsimp only; split
    · exact .inl rfl
    · exact .inl rfl
    · exact .inl rfl
    · exact .inr rfl
  rw [hd]
  refine ⟨hrem.of_blocks (by simp [g]) (by simp [g]), RecordRemoved.of_nego ?_ hseq.1, ?_, ?_, ?_, ?_, ?_⟩
  · show dropEntries (fun d => d.radio == e.radio) (s.removeEntry i).nego.departures = _
    rcases hdep with hx | hx <;> rw [hx]
    exact dropEntries_twice _ _
  · show some _ = some _
    have : (((s.removeEntry i).dropDeparture e.radio).removeOrder e.radio).now = s.now := by simp
    rw [this]
  · exact hseq.2
  · show (s.removeEntry i).steer.remove e.radio = _
    rcases hst with hx | hx <;> rw [hx]
    exact SteerQueue.remove_twice _ _
  · simp [g]
  · simp [g]

end Sys2Proof.Machine
end

