-- ==== Sys2Proof/Tests/Slice0.lean ====
section
/-! SUPPORT. Tests: the refusals of WellFormed, values that the spec works out, small steps of its worked sequences, and for
every statement with hypotheses a state and operands that meet them. -/

namespace Sys2Proof.Tests

set_option Elab.async false

open Sys2Proof.Machine

/-! ### Small states -/

/-- The parameters of chapter 12, and for the rest ordinary values. -/
def parameters : List Byte :=
  [2, 24, 6, 60, 40, 20, 10, 3, 20, 80, 20, 60, 20, 10, 6, 20, 10, 4, 10, 16, 6, 3, 30, 60, 20, 10]

/-- An image of site 17: neighbour 0 is site 23 on channel 45, neighbour 1 is site 31 on channel 52 with bias trim −2; no
admitted range is used; its last byte makes the sum 0. -/
def image : List Byte :=
  [0x54, 17, 30, 0] ++ [23, 45, 0, 1] ++ [31, 52, 0x1E, 1] ++ List.replicate 24 0 ++ [0, 0, 0, 255] ++ [0, 0, 0, 255]
    ++ [0, 0, 0, 255] ++ [0, 0, 0, 255] ++ parameters ++ List.replicate 17 0 ++ [144]

/-- Neighbour 0 of the image, LIVE. -/
def site23 : NeighbourRecord :=
  { site := 23, channel := 45, bias := 0, accept := true, state := .live, lastFrame := some 9000, silence := some 10000 }

/-- Site 17 in RUNNING at site time 10,000, its tables empty, neighbour 0 LIVE, the channel quiet. -/
def running : State :=
  { State.reset with
    resetHeld := false
    now := 10000
    hearing := { State.reset.hearing with neighbours := (Vector.replicate 8 NeighbourRecord.unused).set 0 site23 }
    strays := { State.reset.strays with hearingDeadline := some 10000 }
    link :=
      { State.reset.link with
        quietSince := some { time := 9000, old := false }
        register := 0x1111
        window := some 16
        windowDeadline := some 10000 }
    loader := { State.reset.loader with opState := .running, image := image } }

/-- Site 17 loading. -/
def loading : State :=
  { State.reset with resetHeld := false, now := 50, loader := { State.reset.loader with deadline := some 100 } }

/-- A HOMED entry of the radio 1000 with own level 92 (chapter 12.1). -/
def homed : RosterEntry :=
  { radio := 1000, state := .homed, f := 1472, lastHeard := 9500, lostDeadline := some 15500, count := some 5
    arrival := some { origin := 0, stamp := 9000, guardRuns := false }, emergency := none, callActive := none
    away := none, dwell := none, askReady := false, exclusion := none, heardWhileLeaving := false
    reservation := none }

/-- The entry ASKING. -/
def asking : RosterEntry := { homed with state := .asking, lostDeadline := none }

/-- The entry LEAVING. -/
def leaving : RosterEntry := { homed with state := .leaving, lostDeadline := none }

/-- A reservation made for site 23's ASK 41. -/
def expected : RosterEntry :=
  { homed with
    state := .expected, lostDeadline := none, count := none, arrival := none
    reservation := some { fromSite := 23, sequence := 41, deadline := 10000 } }

/-- The departure record of the radio 1000 toward neighbour 0. -/
def departure (phase : Phase) : Departure :=
  { radio := 1000, rosterIndex := 4, target := 0, sequence := 41, phase := phase, attempt := 1, deadline := 10000
    ownLevel := 92, neighbourLevel := 104, emergency := false, rescue := false }

/-- The entry at roster index 4. -/
def withEntry (e : RosterEntry) (s : State) : State :=
  { s with roster := { s.roster with entries := s.roster.entries.set 4 (some e) } }

/-- The record at position 0. -/
def withDeparture (d : Departure) (s : State) : State :=
  { s with nego := { s.nego with departures := s.nego.departures.set 0 (some d) } }

/-- The radio 1000 heard by neighbour 0 at level 104. -/
def withHearing (s : State) : State :=
  { s with
    hearing :=
      { s.hearing with
        table :=
          s.hearing.table.set 0
            (some { neighbour := 0, radio := 1000, level := 104, received := 9990, expiry := 10000 }) } }

/-- A stray at index 3. -/
def withStray (r : Radio) (s : State) : State :=
  { s with
    strays :=
      { s.strays with
        entries :=
          s.strays.entries.set 3
            (some { radio := r, f := 1664, lastHeard := 9990, ageDeadline := 10000, neighbour := 0, reported := false }) } }

/-- A full roster but for index 60 and those above it. -/
def sixty : State :=
  { running with
    roster :=
      { running.roster with
        entries :=
          mapSlots (fun i : Fin 64 => if i.val < 60 then some { homed with radio := BitVec.ofNat 24 (2000 + i.val) } else none)
            (Vector.finRange 64) } }

/-- A frame received from site 23. -/
def received (dest : Byte) (kind : FrameKind) (body : List Byte) (s : State) : State :=
  { s with link := { s.link with rx := [completeFrame 23 dest kind body] } }

/-- A neighbour's MOVE or this site's REFUSE on the steer port. -/
def order (kind : OrderKind) (r : Radio) (repeats : Nat) : SteerOrder :=
  { kind := kind, radio := r, channel := 45, site := 23, repeats := repeats }

/-- The state after a command, or the state before it where the command is refused. -/
def stepped (c : Instr) (s : State) : State :=
  match exec c s with
  | .next t => t
  | .fault _ => s
  | .refused _ => s

/-- A burst observation on path 0. -/
def heard (r : Radio) (kind : ObsKind) (level : Nat) : Observation :=
  { radio := r, kind := kind, level := level, quality := 0, position := 0, neighbour := 0, origin := 0, count := some 7 }

/-! ### Ill-formed commands -/

theorem test_illFormed_readComplete_length : (Instr.readComplete 9 (List.replicate 95 0)).wellFormed = false := by decide

theorem test_illFormed_readComplete_pulses : (Instr.readComplete 10 image).wellFormed = false := by decide

theorem test_illFormed_missingAcknowledge : (Instr.missingAcknowledge 10 .deviceWrite).wellFormed = false := by decide

theorem test_illFormed_progress_pulses : (BusProgress.mk 10 0 []).wellFormed = false := by decide

theorem test_illFormed_progress_addressed : (BusProgress.mk 9 6 []).wellFormed = false := by decide

theorem test_illFormed_progress_bytes : (BusProgress.mk 9 5 (List.replicate 97 0)).wellFormed = false := by decide

theorem test_illFormed_progress_order : (BusProgress.mk 0 4 [0x54]).wellFormed = false := by decide

theorem test_illFormed_reportFrame : (Instr.reportFrame (List.replicate 64 0)).wellFormed = false := by decide

theorem test_illFormed_unknownCommand : (Instr.unknownCommand 0x30 (.whole 0)).wellFormed = false := by decide

theorem test_refused_illFormed : exec (.reportFrame []) running = .refused .illFormed := by rfl

/-! ### Values that the spec works out -/

/-- The check value of R149. -/
theorem test_crc_check_value :
    crc16 [0x31, 0x32, 0x33, 0x34, 0x35, 0x36, 0x37, 0x38, 0x39] = 0x29B1 := by decide +kernel

/-- The draws of site 23 (R163; chapter 9.10). -/
theorem test_register_draws :
    shiftRegister 0x1717 = 0x2E2E ∧ shiftRegister 0x2E2E = 0x5C5C ∧ 0x2E2E % 16 = 14 ∧ 0x5C5C % 16 = 12 := by decide

/-- The first decline of chapter 2.8: a clamp, a step, and the own levels. -/
theorem test_filter_decline :
    observeF 2 24 1600 72 3 = 1504 ∧ ownLevel 1504 = 94 ∧ observeF 2 24 1504 80 1 = 1448 ∧ ownLevel 1448 = 91 := by decide

/-- Truncation and nudge (chapter 2.8). -/
theorem test_filter_nudge :
    filterStep 4 1448 90 = 1447 ∧ filterStep 4 1599 100 = 1600 ∧ filterStep 4 1617 100 = 1616 ∧ filterStep 1 3 0 = 2
      ∧ filterStep 1 1 0 = 0 := by decide

/-- Limits of the effective level (chapter 2.8). -/
theorem test_level_limits :
    seedF (levelOfByte 255) 7 = 2720 ∧ observeF 1 24 1920 (levelOfByte 201) 0 = 2560 ∧ effectiveLevel 25 7 = 0 := by decide

/-- The conflict test at site 17 (chapter 7.9). -/
theorem test_conflict :
    keepsHandset 17 23 (some 6) (some 5) = true ∧ keepsHandset 17 23 (some 12) (some 3) = false
      ∧ keepsHandset 17 23 (some 3) (some 11) = true ∧ keepsHandset 17 9 none none = false
      ∧ keepsHandset 17 23 (some 4) none = true := by decide

/-- The window following the load (chapter 9.10). -/
theorem test_window_follows :
    nextWindow 6 7 16 = 32 ∧ nextWindow 6 12 64 = 64 ∧ nextWindow 6 4 64 = 64 ∧ nextWindow 6 2 64 = 32 := by decide

/-- Clamping (chapter 10.7). -/
theorem test_clamping :
    clampParam .filterShift 0 = 1 ∧ clampParam .rescueFloor 230 = 200 ∧ clampParam .askAttempts 6 = 4
      ∧ clampParam .initialWindow 40 = 32 ∧ clampParam .pingPongGuard 0 = 0 ∧ clampParam .awayLoss 90 = 60 := by decide

/-- A hearing entry across the wrap of site time (chapter 10.7). -/
theorem test_wrap :
    after 4294967200 600 = 504 ∧ remaining 200 504 = 304 ∧ elapsed 200 4294967200 = 296 := by decide

/-! ### Steps of the worked sequences -/

/-- The example ranges of R14: radio 3,149,900 is admitted and 3,150,848 is not. -/
theorem test_admission :
    let ranged := image.take 36 ++ [0x30, 0, 0, 12, 0x30, 0x10, 0, 10, 0, 0, 0, 255, 0, 0, 0, 255] ++ image.drop 52
    admitted ranged 3149900 = true ∧ admitted ranged 3150848 = false ∧ admitted image 3150848 = true := by decide +kernel

theorem test_tick : (stepped .tick running).now = 10001 := by decide +kernel

/-- A homing (chapter 3.9): F, lost deadline, count. -/
theorem test_homing :
    ((running.deliver (heard 1000 .registration 110)).roster.entries[(0 : Fin 64)].map fun e =>
      (e.state, e.f, e.lostDeadline, e.count)) = some (.homed, 1760, some 16000, some 7) := by decide +kernel

/-- A HEARD report that begins a dwell (chapter 12.1). -/
theorem test_dwell_begins :
    ((stepped .dispatch (received 0 .heard [1, 0, 3, 232, 104] (withEntry homed running))).roster.entries[(4 : Fin 64)].map
      RosterEntry.dwell) = some (some 10200) := by decide +kernel

/-- A HEARD that names one radio twice ends with the second level (R81). -/
theorem test_heard_twice :
    ((stepped .dispatch (received 0 .heard [2, 0, 3, 232, 90, 0, 3, 232, 104] (withEntry homed running))).hearing.table[(0 : Fin 128)].map
      HearingEntry.level) = some 104 := by decide +kernel

/-- A dwell expiry (chapter 12.1): the record, its ASK, the counter. -/
theorem test_dwell_expiry :
    let t := stepped (.dwellExpiry 4) (withHearing (withEntry { homed with dwell := some 10000 } running))
    (t.nego.departures[(0 : Fin 4)].map fun d => (d.sequence, d.deadline, d.ownLevel, d.neighbourLevel)) = some (1, 10100, 92, 104)
      ∧ t.lnkTxd.take 11 = [23, 17, 0x21, 7, 0, 3, 232, 1, 92, 104, 0] := by decide +kernel

/-- A TAKE accepted (chapter 12.1): the leave deadline and the MOVE. -/
theorem test_take :
    let t := stepped .dispatch
      (received 17 .take [0, 3, 232, 41, 80] (withDeparture (departure .asking) (withEntry asking running)))
    (t.nego.departures[(0 : Fin 4)].map Departure.deadline) = some 11000 ∧ t.steer.strDat = [1, 0, 3, 232, 45, 23] := by
  decide +kernel

/-- An ASK accepted (chapter 12.1): the reservation made from the stray. -/
theorem test_ask_accepted :
    ((stepped .dispatch (received 17 .ask [0, 3, 232, 41, 92, 104, 0] (withStray 1000 running))).roster.entries[(0 : Fin 64)].map
      fun e => (e.state, e.f, e.reservation)) =
        some (.expected, 1664, some { fromSite := 23, sequence := 41, deadline := 10800 }) := by decide +kernel

/-- The last attempt is over (chapter 12.2). -/
theorem test_ask_timed_out :
    ((stepped (.answerDeadline 0)
      (withDeparture { departure .asking with attempt := 3 } (withEntry asking running))).roster.entries[(4 : Fin 64)].map
        fun e => (e.state, e.lostDeadline, e.exclusion)) =
          some (.homed, some 16000, some { neighbour := 0, deadline := 12000 }) := by decide +kernel

/-- A HOMED from the target confirms (chapter 12.1). -/
theorem test_confirmed :
    let t := stepped .dispatch
      (received 0 .homed [0, 3, 232, 6, 17] (withDeparture (departure .leaving) (withEntry leaving running)))
    t.nego.last = some { radio := 1000, toSite := 23, stamp := 10000, outcome := .confirmed } ∧ t.occupancy = 0 := by
  decide +kernel

/-- A steer fails (chapter 12.4). -/
theorem test_steer_failed :
    let t := stepped (.leaveDeadline 0)
      (withDeparture (departure .leaving) (withEntry { leaving with heardWhileLeaving := true } running))
    (t.roster.entries[(4 : Fin 64)].map RosterEntry.state) = some .homed ∧ t.port.counters[(4 : Fin 16)] = 1 := by
  decide +kernel

/-- A full roster refuses (chapter 3.9). -/
theorem test_refused :
    let t := sixty.deliver (heard 1000 .registration 110)
    t.port.flags.rosterFull = true ∧ t.steer.strDat = [2, 0, 3, 232, 0, 0] := by decide +kernel

/-- An image whose sum is wrong (chapter 10.7). -/
theorem test_bad_sum :
    (stepped (.readComplete 0 (image.set 95 148)) loading).loader.opState = .configFault := by decide +kernel

/-- An image that passes (chapter 10.7): register, W and window deadline. -/
theorem test_good_image :
    let t := stepped (.readComplete 0 image) loading
    t.loader.opState = .running ∧ t.link.register = 0x1111 ∧ t.link.windowDeadline = some 150 := by decide +kernel

/-- The count is frozen by an onset (chapter 9.10). -/
theorem test_frozen :
    (stepped .carrierOnset { running with link := { running.link with txState := .backoff 8 } }).link.txState
      = .defer (some 8) := by decide +kernel

/-- STATUS on a part that runs (R186). -/
theorem test_status : (stepped (.status (.whole 7)) (withEntry homed running)).port.mntDo = [0, 2, 0, 0, 0, 1, 0, 16] := by
  decide +kernel

/-- A frame taken as its command byte and its rise, two bytes having been clocked (R184, R189). -/
theorem test_command_then_rise :
    let t := stepped (.selectTable 2 5 (.rise 2)) (stepped (.selectTable 2 5 .command) running)
    t.port.cursorTable = 2 ∧ t.port.cursorIndex = 5 ∧ t.port.flags.cmdDropped = false ∧ t.port.frame = none := by
  decide +kernel

/-- The bytes 0x21 0x00 0x03 0xE8 are PIN of radio 1000, and 0x04 is no command (R184). -/
theorem test_frame_command :
    frameCommand [0x21, 0x00, 0x03, 0xE8] = some (.pin 1000 (.whole 3))
      ∧ frameCommand [0x10, 2, 5] = some (.selectTable 2 5 (.whole 2)) ∧ frameCommand [0x04, 0] = some (.unknownCommand 4 (.whole 1))
      ∧ frameCommand [0x01, 0, 0] = some (.status (.whole 2)) ∧ frameCommand [] = none := by decide

/-- The record of a HOMED entry: index 4, radio 1000, F 1472, stamps 9500 and 9000, 5,500 ticks to the lost deadline
(00_scope.md, 7.4). -/
theorem test_roster_record :
    let record := (withEntry homed running).tableEntry 0 4
    record.take 19 = [0, 4, 0, 3, 232, 0, 1, 5, 0x05, 0xC0, 0, 0, 0x25, 0x1C, 0, 0, 0x23, 0x28, 0]
      ∧ (record.drop 24).take 8 = [0x15, 0x7C, 0, 0, 0, 0, 0, 0] ∧ record.length = 40 := by decide +kernel

/-! ### States and operands that meet the hypotheses of the statements -/

theorem witness_StepExecutesFrontOfQueue :
    ({ running with pending := [.tick, .dispatch] }).pending = .tick :: [.dispatch] ∧ running.pending = [] := by
  decide +kernel

theorem witness_WellFormedCommandsComplete :
    (Instr.reportFrame (List.replicate 65 0)).wellFormed = true ∧ (Instr.reportFrame []).wellFormed = false := by decide

theorem witness_EventsThatCannotOccurChangeNothing :
    Instr.backoffEnd.wellFormed = true ∧ running.canOccur .backoffEnd = false := by decide +kernel

theorem witness_SiteTimeAdvancesByTicksAlone :
    (∃ t, exec .dispatch running = .next t) ∧ Instr.dispatch ≠ .hardReset ∧ Instr.dispatch ≠ .tick
      ∧ running.resetHeld = false ∧ (∀ b, running.link.txState ≠ .backoff b)
      ∧ ({ running with link := { running.link with txState := .backoff (0 + 1) } }).link.txState = .backoff (0 + 1)
      ∧ ((34500 : Time) - 9000).toNat = 25500 :=
  ⟨⟨_, rfl⟩, by decide, by decide, rfl, (fun _ h => nomatch h), rfl, by decide⟩

theorem witness_FlagsStayUntilTaken :
    (∃ t, exec .tick running = .next t) ∧ Instr.tick ≠ .hardReset ∧ ∀ part, Instr.tick ≠ .takeAttention part :=
  ⟨⟨_, rfl⟩, by decide, (fun _ h => nomatch h)⟩

theorem witness_CountersNeverWrap :
    (∃ t, exec .tick running = .next t) ∧ Instr.tick ≠ .hardReset
      ∧ ∀ clear part, Instr.tick ≠ .readCounters clear part :=
  ⟨⟨_, rfl⟩, by decide, (fun _ _ h => nomatch h)⟩

/-- A part whose load has failed. -/
def faulted : State := { loading with loader := { loading.loader with opState := .configFault, deadline := none } }

theorem witness_LoadBeginsOnReleaseAndReload :
    State.reset.resetHeld = true ∧ (faulted.portReady = true ∧ faulted.loader.opState = .configFault)
      ∧ (running.portReady = true ∧ running.loader.opState ≠ .configFault) := by decide +kernel

theorem witness_ImageChecksDecideTheLoad :
    loading.resetHeld = false ∧ loading.loading = true ∧ 9 ≤ 9 ∧ image.length = 96 := by decide +kernel

theorem witness_PassingImageEntersRunning :
    loading.resetHeld = false ∧ loading.loading = true ∧ 9 ≤ 9 ∧ image.length = 96 ∧ imagePasses image = true := by
  decide +kernel

theorem witness_FailedLoadEntersConfigFault :
    loading.resetHeld = false ∧ loading.loading = true ∧ (Instr.readComplete 9 (List.replicate 96 0)).wellFormed = true
      ∧ imagePasses (List.replicate 96 0) = false ∧ (Instr.missingAcknowledge 9 .deviceRead).wellFormed = true
      ∧ Instr.stuckDataLine.wellFormed = true ∧ (Instr.loadDeadline ⟨9, 5, [0x54]⟩ true).wellFormed = true
      ∧ ({ loading with now := 100 }).loader.deadline = some ({ loading with now := 100 }).now := by decide +kernel

/-- The part with a report frame begun, `n` the last accepted number. -/
def collecting (n : Byte) : State :=
  { running with intake := { running.intake with collecting := true, expectation := some n } }

theorem witness_ReportFramesAreCheckedByNumber :
    (collecting 200).resetHeld = false ∧ (collecting 200).intake.collecting = true
      ∧ (List.replicate 65 (0 : Byte)).length = 65 ∧ (collecting 200).loader.opState = .running
      ∧ (collecting 200).intake.expectation = some 200
      ∧ [(200 : Nat), 72, 202, 71].map (fun n => (n + 256 - 200) % 256) = [0, 128, 2, 127]
      ∧ ({ collecting 200 with loader := faulted.loader }).loader.opState ≠ .running := by decide +kernel

theorem witness_SlotsActOnPathLocksAsTabled :
    (⟨1000, 2⟩ : PathLock).nones ≤ 2 ∧ ((1 : Radio) ≠ 0 ∧ (1 : Radio) ≠ 16777215)
      ∧ ¬((16777215 : Radio) ≠ 0 ∧ (16777215 : Radio) ≠ 16777215) := by decide

theorem witness_BurstIsDeliveredOrCounted :
    let s := { collecting 255 with intake := { (collecting 255).intake with expectation := some (0 - 1) } }
    s.resetHeld = false ∧ s.intake.collecting = true ∧ s.loader.opState = .running
      ∧ (s.intake.expectation = none ∨ s.intake.expectation = some (0 - 1)) ∧ s.intake.locks = Vector.replicate 8 none
      ∧ ((6 : Byte), ObsKind.emergency)
          ∈ [((1 : Byte), ObsKind.registration), (2, .header), (5, .data), (6, .emergency)]
      ∧ (16777214 : Radio) ≠ 0 ∧ (16777214 : Radio) ≠ 16777215
      ∧ (List.replicate 65 (0 : Byte)).length = 65
      ∧ s.intake.expectation = some (byteAt (List.replicate 65 (0 : Byte)) 0 - 1)
      ∧ (slotEffect .silent 0 (some ⟨1000, 2⟩)).observed = none
      ∧ (slotEffect (.burst .voice) 5 (some ⟨1000, 2⟩)).observed = some 1000
      ∧ running.rosterIndex (heard 1000 .terminator 9).radio = none ∧ (heard 1000 .terminator 9).position.val < 6
      ∧ (heard 1000 .terminator 9).kind = .terminator := by decide +kernel

theorem witness_HomingCreatesEntry :
    let o := heard 1000 .registration 92
    let e := heard 1000 .emergency 92
    ((withStray 1000 running).rosterIndex o.radio = none ∧ o.position.val < 6 ∧ o.kind ≠ .terminator
        ∧ (withStray 1000 running).occupancy < 60 ∧ lowestFree (withStray 1000 running).roster.entries = some 0)
      ∧ sixty.rosterIndex e.radio = none ∧ e.position.val < 6 ∧ e.kind ≠ .terminator ∧ sixty.occupancy < 64
      ∧ lowestFree sixty.roster.entries = some 60 := by decide +kernel

/-- Eight orders held: seven REFUSE and, newest, one MOVE. -/
def eightOrders : State :=
  { sixty with
    steer :=
      { running.steer with
        orders :=
          [order .refuse 3000 1, order .refuse 3001 1, order .refuse 3002 1, order .refuse 3003 1, order .refuse 3004 1,
            order .refuse 3005 1, order .refuse 3006 1, order .move 2000 3]
        admission := [3000, 3001, 3002, 3003, 3004, 3005, 3006, 2000]
        strRdy := true
        strDat := (order .refuse 3000 1).bytes } }

theorem witness_HomingRefusedOffersRefuse :
    let o := heard 1000 .registration 92
    sixty.rosterIndex o.radio = none ∧ o.position.val < 6 ∧ o.kind ≠ .terminator ∧ 60 ≤ sixty.occupancy
      ∧ (sixty.steer.orders.any fun x => x.radio == o.radio) = false ∧ sixty.steer.orders.length < 8
      ∧ eightOrders.rosterIndex o.radio = none ∧ 60 ≤ eightOrders.occupancy
      ∧ (eightOrders.steer.orders.any fun x => x.radio == o.radio) = false ∧ 8 ≤ eightOrders.steer.orders.length
      ∧ (eightOrders.steer.orders.any fun x => x.radio == (heard 3000 .header 9).radio) = true := by decide +kernel

/-- A full stray list: 32 entries, that at index 31 the weakest. -/
def fullStrays : Vector (Option StrayEntry) 32 :=
  mapSlots
    (fun j : Fin 32 => some ⟨BitVec.ofNat 24 (5000 + j.val), if j.val = 31 then 800 else 1664, 9990, 10000, 0, false⟩)
    (Vector.finRange 32)

theorem fullStrays_entry (k : Fin 32) :
    fullStrays[k] =
      some ⟨BitVec.ofNat 24 (5000 + k.val), if k.val = 31 then 800 else 1664, 9990, 10000, 0, false⟩ := by
  revert k; decide +kernel

theorem witness_RosteredHandsetIsHeard :
    let o := heard 1000 .voice 92
    let m := { o with position := 6 }
    let full := { running with strays := { running.strays with entries := fullStrays } }
    ((∀ e ∈ [homed, asking, leaving, expected], (withEntry e running).rosterIndex 1000 = some 4
        ∧ (withEntry e running).roster.entries[(4 : Fin 64)] = some e)
      ∧ o.position.val < 6 ∧ 6 ≤ m.position.val ∧ homed.state = .homed ∧ asking.state = .asking
      ∧ leaving.state ≠ .expected ∧ expected.state = .expected)
      ∧ (running.rosterIndex m.radio = none ∧ (withStray 1000 running).rosterIndex m.radio = none
        ∧ (withStray 1000 running).strays.indexOf m.radio = some 3
        ∧ (withStray 1000 running).strays.entries[(3 : Fin 32)] = some ⟨1000, 1664, 9990, 10000, 0, false⟩
        ∧ running.strays.indexOf m.radio = none ∧ lowestFree running.strays.entries = some 0)
      ∧ (full.rosterIndex m.radio = none ∧ full.strays.indexOf m.radio = none ∧ lowestFree full.strays.entries = none
        ∧ full.strays.entries[(31 : Fin 32)] = some ⟨5031, 800, 9990, 10000, 0, false⟩)
      ∧ ∀ (k : Fin 32) x, full.strays.entries[k] = some x →
        (800 + 8) / 16 ≤ (x.f + 8) / 16
          ∧ ((800 + 8) / 16 = (x.f + 8) / 16 →
            (full.now - x.lastHeard).toNat ≤ (full.now - 9990).toNat
              ∧ ((full.now - x.lastHeard).toNat = (full.now - 9990).toNat → 31 ≤ k)) := by
  refine ⟨by decide +kernel, by decide +kernel, by decide +kernel, ?_⟩
  intro k x hx
  have : some x =
      some ⟨BitVec.ofNat 24 (5000 + k.val), if k.val = 31 then 800 else 1664, 9990, 10000, 0, false⟩ :=
    hx.symm.trans (fullStrays_entry k)
  cases this
  clear hx
  revert k
  decide +kernel

theorem witness_ArrivalTurnsReservationHomed :
    (withEntry expected running).rosterIndex (heard 1000 .voice 92).radio = some 4
      ∧ (withEntry expected running).roster.entries[(4 : Fin 64)] = some expected ∧ expected.state = .expected
      ∧ expected.reservation = some { fromSite := 23, sequence := 41, deadline := 10000 }
      ∧ (heard 1000 .voice 92).position.val < 6 := by decide +kernel

/-- A departure that is LEAVING, its leave deadline now. -/
def leaves : State := withDeparture (departure .leaving) (withEntry leaving running)

/-- A departure that is ASKING, its answer deadline now. -/
def asks : State := withDeparture (departure .asking) (withEntry asking running)

theorem witness_LeavingHandsetHeardHere :
    leaves.rosterIndex 1000 = some 4 ∧ leaves.roster.entries[(4 : Fin 64)] = some leaving ∧ leaving.radio = 1000
      ∧ leaving.state = .leaving ∧ leaves.departureIndex 1000 = some 0
      ∧ leaves.nego.departures[(0 : Fin 4)] = some (departure .leaving) ∧ (departure .leaving).rosterIndex = 4
      ∧ (departure .leaving).phase = .leaving ∧ (departure .leaving).radio = 1000 ∧ leaves.noneAskReady = true
      ∧ (heard 1000 .registration 9).position.val < 6 := by decide +kernel

theorem witness_FilterAndHysteresisFollowTheirRules : 1440 < 91 * 16 ∧ 90 * 16 < 1448 ∧ 31 ≤ 31 := by decide

/-- The one entry of the hearing table of `withHearing`. -/
theorem withHearing_entry {j : Fin 128} {x : HearingEntry} (h : (withHearing running).hearing.table[j] = some x) : j = 0 := by
  have hj : (withHearing running).hearing.table[j] =
      if (0 : Fin 128) = j then some ⟨0, 1000, 104, 9990, 10000⟩ else none := by
    clear h; revert j; decide +kernel
  rw [hj] at h
  split at h
  · next e => exact e.symm
  · cases h

theorem witness_BestNeighbourHearsGreatest :
    ∀ (i j : Fin 128) x y, (withHearing running).hearing.table[i] = some x →
      (withHearing running).hearing.table[j] = some y → x.neighbour = y.neighbour → x.radio = y.radio → i = j :=
  fun _ _ _ _ hx hy _ _ => (withHearing_entry hx).trans (withHearing_entry hy).symm

theorem witness_EvaluationFollowsItsTable : homed.state = .homed := by decide

/-- The HOMED entry, every deadline that it can hold being now. -/
def due : RosterEntry :=
  { homed with
    lostDeadline := some 10000, emergency := some 10000, callActive := some 10000, dwell := some 10000
    arrival := some { origin := 23, stamp := 7000, guardRuns := true }
    exclusion := some { neighbour := 7, deadline := 10000 } }

theorem witness_LostAndLapsedEntriesAreRemoved :
    running.resetHeld = false ∧ (withEntry due running).roster.entries[(4 : Fin 64)] = some due ∧ due.state = .homed
      ∧ due.lostDeadline = some running.now
      ∧ (withEntry expected running).roster.entries[(4 : Fin 64)] = some expected ∧ expected.state = .expected
      ∧ expected.reservation = some ⟨23, 41, running.now⟩ := by decide +kernel

theorem witness_FieldDeadlinesReevaluateTheEntry :
    running.resetHeld = false ∧ (withEntry due running).roster.entries[(4 : Fin 64)] = some due
      ∧ due.callActive = some running.now ∧ due.emergency = some running.now
      ∧ due.arrival = some ⟨23, 7000, true⟩
      ∧ running.now = 7000 + BitVec.ofNat 32 ((withEntry due running).par .pingPongGuard * 100)
      ∧ due.exclusion = some ⟨7, running.now⟩ := by decide +kernel

/-- An entry at its dwell deadline that meets the condition, the departure list being as `records` has it. -/
def dwelt (records : Vector (Option Departure) 4) : State :=
  let s := withHearing (withEntry { homed with dwell := some 10000 } running)
  { s with nego := { s.nego with departures := records } }

/-- Four departures of other radios. -/
def fourRecords : Vector (Option Departure) 4 :=
  ⟨#[some { departure .asking with radio := 1, rosterIndex := 11 }, some { departure .asking with radio := 2, rosterIndex := 12 },
    some { departure .asking with radio := 3, rosterIndex := 13 }, some { departure .asking with radio := 4, rosterIndex := 14 }],
    rfl⟩

theorem witness_DwellExpiryOpensOrDefers :
    let e := { homed with dwell := some 10000 }
    (dwelt fourRecords).resetHeld = false ∧ (dwelt fourRecords).roster.entries[(4 : Fin 64)] = some e
      ∧ e.state = .homed ∧ e.dwell = some (dwelt fourRecords).now ∧ (dwelt fourRecords).candidate e = true
      ∧ lowestFree (dwelt fourRecords).nego.departures = none
      ∧ lowestFree (dwelt (fourRecords.set 3 none)).nego.departures = some 3
      ∧ (dwelt (fourRecords.set 3 none)).candidate e = true
      ∧ (withEntry e running).candidate e = false := by decide +kernel

theorem witness_AnswerDeadlineResendsOrGivesUp :
    asks.resetHeld = false ∧ asks.nego.departures[(0 : Fin 4)] = some (departure .asking)
      ∧ (departure .asking).phase = .asking ∧ (departure .asking).deadline = asks.now
      ∧ 2 < asks.par .askAttempts ∧ asks.par .askAttempts ≤ 3 ∧ asks.noneAskReady = true
      ∧ asks.roster.entries[(departure .asking).rosterIndex] = some asking := by decide +kernel

theorem witness_LeaveDeadlineRevertsOrRemoves :
    leaves.resetHeld = false ∧ leaves.nego.departures[(0 : Fin 4)] = some (departure .leaving)
      ∧ (departure .leaving).phase = .leaving ∧ (departure .leaving).deadline = leaves.now
      ∧ leaves.roster.entries[(departure .leaving).rosterIndex] = some leaving
      ∧ leaving.radio = (departure .leaving).radio ∧ leaving.state = .leaving ∧ leaves.noneAskReady = true
      ∧ leaving.heardWhileLeaving = false ∧ ({ leaving with heardWhileLeaving := true }).heardWhileLeaving = true := by
  decide +kernel

/-- An entry that is ask-ready. -/
def ready : State := withHearing (withEntry { homed with askReady := true } running)

/-- The one entry of the roster of `ready`. -/
theorem ready_entry {i : Fin 64} {e : RosterEntry} (h : ready.roster.entries[i] = some e) :
    i = 4 ∧ e = { homed with askReady := true } := by
  have hi : ready.roster.entries[i] = if (4 : Fin 64) = i then some { homed with askReady := true } else none := by
    clear h; revert i; decide +kernel
  rw [hi] at h
  split at h
  · next k => exact ⟨k.symm, (Option.some.inj h).symm⟩
  · cases h

theorem witness_ArbiterTakesGreatestAdvantage :
    (ready.roster.entries[(4 : Fin 64)] = some { homed with askReady := true }
        ∧ ready.bestNeighbour { homed with askReady := true } = some (0, 104) ∧ (12 : Int) = 104 - ((1472 + 8) / 16 : Nat)
        ∧ lowestFree ready.nego.departures = some 0 ∧ ready.hearing.levelFor 0 homed.radio = some 104)
      ∧ ∀ (j : Fin 64) (f : RosterEntry) (m : Fin 8) (y : Int), ready.roster.entries[j] = some f →
        (∃ a, ready.bestNeighbour f = some (m, a) ∧ y = a - ((f.f + 8) / 16 : Nat)) → y ≤ 12 ∧ (y = 12 → 4 ≤ j) := by
  have hb : ready.bestNeighbour { homed with askReady := true } = some (0, 104) := by decide +kernel
  refine ⟨⟨by decide +kernel, hb, by decide, by decide +kernel, by decide +kernel⟩, ?_⟩
  rintro j f m y hf ⟨a, ha, rfl⟩
  obtain ⟨rfl, rfl⟩ := ready_entry hf
  rw [hb] at ha
  cases ha
  decide

theorem witness_StraysHearingsAndNeighboursAgeOut :
    running.resetHeld = false
      ∧ (withStray 1000 running).strays.entries[(3 : Fin 32)] = some ⟨1000, 1664, 9990, running.now, 0, false⟩
      ∧ (withHearing running).hearing.table[(0 : Fin 128)] = some ⟨0, 1000, 104, 9990, running.now⟩
      ∧ running.hearing.neighbours[(0 : Fin 8)].state = .live
      ∧ running.hearing.neighbours[(0 : Fin 8)].silence = some running.now := by decide +kernel

theorem witness_SelectionTakesFirstSixOfTheWalk :
    ∃ e, (withStray 1000 running).strays.entries[(3 : Fin 32)] = some e ∧ 104 ≤ (e.f + 8) / 16 ∧ e.reported = false :=
  ⟨_, rfl, by decide, rfl⟩

/-- A frame that waits in the transmit queue. -/
def waiting (keyed : Bool) : TxItem := { frame := completeFrame 17 23 .take [0, 3, 232, 41, 80], keyed := keyed }

/-- The transmitter in a state, with frames in its queue. -/
def transmitter (x : TxState) (tx : List TxItem) : State :=
  { running with link := { running.link with txState := x, tx := tx } }

theorem witness_HearingPeriodSendsNotices :
    let s := withStray 1000 running
    let full := { s with link := { s.link with txState := .backoff 9, tx := List.replicate 16 (waiting false) } }
    s.resetHeld = false ∧ s.strays.hearingDeadline = some s.now
      ∧ (s.loader.opState = .running ∧ s.port.listenOnly = false ∧ ∀ x ∈ s.link.tx, x.frame.kind ≠ .heard)
      ∧ s.strays.selection (s.par .reportFloor) ≠ [] ∧ s.link.tx.length < 16 ∧ s.link.txState ≠ .muted
      ∧ (full.strays.hearingDeadline = some full.now ∧ 16 ≤ full.link.tx.length
          ∧ ∀ x ∈ full.link.tx, x.frame.kind ≠ .heard)
      ∧ running.strays.selection (running.par .reportFloor) = [] ∧ running.link.lastSent = none
      ∧ faulted.loader.opState ≠ .running := by decide +kernel

theorem witness_TransmitterWaitsRunOut :
    let m : MarkedStamp := { time := 9996, old := false }
    let quiet (x : TxState) (tx : List TxItem) : State :=
      { transmitter x tx with link := { (transmitter x tx).link with quietSince := some m } }
    let s := quiet (.defer (some 63)) [waiting false]
    let u := quiet (.defer none) [waiting false]
    let seeded (x : State) : State := { x with link := { x.link with register := 0x0110, window := some 4 } }
    let ends := quiet (.spacing 10000) [waiting false]
    s.resetHeld = false ∧ s.link.quietSince = some m ∧ s.now = m.time + BitVec.ofNat 32 (s.par .idleGap)
      ∧ s.link.txState = .defer (some 63) ∧ 63 ≠ 0 ∧ u.link.txState = .defer none ∧ u.link.tx = waiting false :: []
      ∧ (u.link.register = 0x1111 ∧ u.link.window = some 16 ∧ (shiftRegister 0x1111).toNat % 16 ≠ 0)
      ∧ (∀ x ∈ [u, ends], (seeded x).link.register = 0x0110 ∧ (seeded x).link.window = some 4
        ∧ (seeded x).link.tx = waiting false :: [] ∧ (shiftRegister 0x0110).toNat % 4 = 0)
      ∧ (quiet (.backoff 0) [waiting false]).link.txState = .backoff 0
      ∧ (quiet (.spacing 10000) []).link.txState = .spacing running.now ∧ (quiet (.spacing 10000) []).link.tx = []
      ∧ ends.link.txState = .spacing ends.now ∧ ends.link.tx ≠ []
      ∧ s.par .idleGap ≤ (s.now - m.time).toNat
      ∧ ((10000 : Time) - 9997).toNat < s.par .idleGap := by decide +kernel

theorem witness_WindowEndFollowsTheLoad :
    running.resetHeld = false ∧ running.link.windowDeadline = some running.now ∧ running.link.window = some 16
      ∧ 16 ∈ [4, 8, 16, 32, 64] ∧ running.par .loadThreshold ≤ (6 : Count16).toNat
      ∧ (2 : Count16).toNat < running.par .loadThreshold / 2
      ∧ ¬(running.par .loadThreshold ≤ (3 : Count16).toNat ∨ (3 : Count16).toNat < running.par .loadThreshold / 2) := by
  decide +kernel

theorem witness_CarrierOnsetFreezesTheCount :
    let s := transmitter (.backoff 1) [waiting false]
    s.resetHeld = false ∧ s.link.lnkCd = false ∧ s.link.txState ≠ .backoff 0 ∧ s.link.txState = .backoff 1 := by
  decide +kernel

/-- A carrier that delivers its bytes, `n` frames already waiting. -/
def delivering (n : Nat) : State :=
  { running with
    link :=
      { running.link with
        lnkCd := true, collection := .collecting, quietSince := none
        rx := List.replicate n (completeFrame 31 0 .heard [0]) } }

theorem witness_CarrierFallJudgesTheFrame :
    let good := (completeFrame 23 17 .take [0, 3, 232, 41, 80]).bytes
    let own := (completeFrame 17 23 .take [0, 3, 232, 41, 80]).bytes
    (delivering 15).resetHeld = false ∧ (delivering 15).link.lnkCd = true ∧ (delivering 15).link.collection = .collecting
      ∧ good ≠ [] ∧ passesTests (good.set 4 1) = false ∧ passesTests good = true ∧ passesTests own = true
      ∧ byteAt own 1 = byteAt (delivering 15).loader.image 1 ∧ byteAt good 1 ≠ byteAt (delivering 15).loader.image 1
      ∧ (delivering 15).link.rx.length < 16 ∧ 16 ≤ (delivering 16).link.rx.length := by decide +kernel

theorem witness_SentReportEndsTransmission :
    let s := transmitter .sending [waiting true]
    let short := { s with loader := { s.loader with image := image.set 70 0 } }
    let more := { short with link := { short.link with tx := [waiting true, waiting false], quietSince := none } }
    let noisy := { more with link := { more.link with lnkCd := true } }
    s.resetHeld = false ∧ s.link.txState = .sending ∧ s.par .txSpacing ≠ 0 ∧ short.par .txSpacing = 0
      ∧ (short.resetHeld = false ∧ short.link.txState = .sending ∧ (short.link.tx.filter fun x => !x.keyed) = [])
      ∧ ∀ x ∈ [more, noisy], x.resetHeld = false ∧ x.link.txState = .sending ∧ x.par .txSpacing = 0
        ∧ (x.link.tx.filter fun x => !x.keyed) ≠ [] ∧ x.par .idleGap ≠ 0 ∧ x.link.quietSince = none
        ∧ more.link.lnkCd = false ∧ noisy.link.lnkCd = true := by decide +kernel

theorem witness_DispatchRoutesTheHeadFrame :
    let s := received 31 .heard [0] running
    s.resetHeld = false ∧ s.link.rx = completeFrame 23 31 .heard [0] :: [] ∧ s.loader.opState = .running
      ∧ s.hearing.neighbourOf 23 = some 0 ∧ (31 : Byte) ≠ 0 ∧ 31 ≠ byteAt s.loader.image 1
      ∧ s.hearing.neighbourOf 40 = none ∧ (completeFrame 40 0 .heard [0]).dest = 0
      ∧ (completeFrame 40 17 .ask []).dest = byteAt s.loader.image 1 ∧ (completeFrame 40 17 .ask []).kind ≠ .heard
      ∧ ({ s with loader := faulted.loader }).loader.opState ≠ .running := by decide +kernel

/-- A full hearing table: 128 entries of neighbour 1, that at 127 the oldest. -/
def fullTable : Vector (Option HearingEntry) 128 :=
  mapSlots
    (fun j : Fin 128 => some ⟨1, BitVec.ofNat 24 (4000 + j.val), 50, if j.val = 127 then 9000 else 9500, 11000⟩)
    (Vector.finRange 128)

theorem fullTable_entry (k : Fin 128) :
    fullTable[k] = some ⟨1, BitVec.ofNat 24 (4000 + k.val), 50, if k.val = 127 then 9000 else 9500, 11000⟩ := by
  revert k; decide +kernel

theorem witness_HeardPairIsStoredOrDiscarded :
    let s := withEntry homed (received 0 .heard ([0x01] ++ radioBytes 1000 ++ [201]) running)
    let full := { s with hearing := { s.hearing with table := fullTable } }
    (∀ pairs ∈ [([] : List (Radio × Byte)), [(1000, 201)], [(1001, 90), (1000, 201)], List.replicate 6 (1000, 200)],
        let body := BitVec.ofNat 8 pairs.length :: pairs.flatMap (fun x => radioBytes x.1 ++ [x.2])
        let u := received 0 .heard body running
        u.resetHeld = false ∧ u.link.rx = completeFrame 23 0 .heard body :: [] ∧ u.loader.opState = .running
          ∧ u.hearing.neighbourOf 23 = some 0 ∧ pairs.length ≤ 6 ∧ bodyFits .heard body = true)
      ∧ s.rosterEntry 1001 = none
      ∧ (s.rosterEntry 1000 = some homed ∧ homed.state ≠ .expected)
      ∧ (withHearing s).hearing.pairIndex 0 1000 = some 0
      ∧ (s.hearing.pairIndex 0 1000 = none ∧ lowestFree s.hearing.table = some 0)
      ∧ (full.hearing.pairIndex 0 1000 = none ∧ lowestFree full.hearing.table = none
        ∧ full.hearing.table[(127 : Fin 128)] = some ⟨1, 4127, 50, 9000, 11000⟩)
      ∧ ∀ (k : Fin 128) x, full.hearing.table[k] = some x →
        (full.now - x.received).toNat ≤ ((10000 : Time) - 9000).toNat
          ∧ ((full.now - x.received).toNat = ((10000 : Time) - 9000).toNat → 127 ≤ k) := by
  refine ⟨by decide +kernel, by decide +kernel, by decide +kernel, by decide +kernel, by decide +kernel, by decide +kernel, ?_⟩
  intro k x hx
  have : some x = some ⟨1, BitVec.ofNat 24 (4000 + k.val), 50, if k.val = 127 then 9000 else 9500, 11000⟩ :=
    hx.symm.trans (fullTable_entry k)
  cases this
  clear hx
  revert k
  decide +kernel

/-- The neighbour at index 0 SILENT. -/
def silenced (s : State) : State :=
  { s with hearing := { s.hearing with neighbours := s.hearing.neighbours.set 0 { site23 with state := .silent, silence := none } } }

/-- The state in which the head frame of the receive queue is handled. -/
def livened (s : State) : State :=
  match s.link.rx with
  | f :: rest => s.dispatched f rest
  | [] => s

theorem witness_AnswersMoveTheDeparture :
    let bare := { asks with loader := { asks.loader with image := image.set 62 0 } }
    (17 : Byte) = byteAt asks.loader.image 1 ∧ (0 : Byte).toNat + bare.par .leaveMargin = 0
      ∧ (1 : Byte).toNat + asks.par .leaveMargin ≠ 0 ∧ asking.radio = (departure .asking).radio
      ∧ ∀ x ∈ [(bare, (0 : Byte)), (asks, 1), (silenced asks, 1)], ∀ kind ∈ [FrameKind.take, .decline],
        let s := received 17 kind (radioBytes 1000 ++ [41, x.2]) x.1
        (s.resetHeld = false ∧ s.link.rx = completeFrame 23 17 kind (radioBytes 1000 ++ [41, x.2]) :: []
            ∧ s.loader.opState = .running ∧ s.hearing.neighbourOf 23 = some 0)
          ∧ s.matchingRecord 23 1000 41 = some 0 ∧ s.matchingRecord 23 1000 42 = none
          ∧ s.nego.departures[(0 : Fin 4)] = some (departure .asking)
          ∧ (livened s).roster.entries[(4 : Fin 64)] = some asking
          ∧ s.steer.orders.length < 8 ∧ (livened s).noneAskReady = true
          ∧ ({ s with link := { s.link with rx := [completeFrame 40 17 kind []] } }).hearing.neighbourOf 40 = none
          ∧ s.matchingRecord 40 1000 41 = none := by decide +kernel

theorem witness_MoveDisplacesTheNewestRefuse :
    eightOrders.steer.orders.length = 8
      ∧ eightOrders.steer.admission = [3000, 3001, 3002, 3003, 3004, 3005] ++ 3006 :: [2000]
      ∧ (eightOrders.steer.orders.any fun x => x.radio == 3006 && x.kind == .refuse) = true
      ∧ (∀ x ∈ [(2000 : Radio)], (eightOrders.steer.orders.any fun y => y.radio == x && y.kind == .refuse) = false)
      ∧ running.steer.orders.length < 8 ∧ (∃ x ∈ eightOrders.steer.orders, x.radio = 3000)
      ∧ ∀ x ∈ eightOrders.steer.orders, x.radio ≠ 1000 := by
  refine ⟨by decide +kernel, by decide +kernel, by decide +kernel, fun x hx => ?_, by decide +kernel, by decide +kernel,
    by decide +kernel⟩
  cases List.mem_singleton.mp hx
  decide +kernel

theorem witness_AskIsAnsweredByTheFirstCase :
    let f (q flags : Byte) := completeFrame 23 17 .ask (radioBytes 1000 ++ [q, 92, 104, flags])
    let s (q flags : Byte) (u : State) := received 17 .ask (radioBytes 1000 ++ [q, 92, 104, flags]) u
    (∀ u ∈ [running, silenced running, sixty],
        let plain := s 41 0 u
        (plain.resetHeld = false ∧ plain.link.rx = f 41 0 :: [] ∧ plain.loader.opState = .running ∧ (f 41 0).kind = .ask
            ∧ (f 41 0).dest = byteAt plain.loader.image 1 ∧ plain.hearing.neighbourOf 40 = none
            ∧ plain.hearing.neighbourOf 23 = some 0)
          ∧ plain.port.listenOnly = false ∧ plain.port.hold ≠ .closed)
      ∧ (livened (s 41 0 (withEntry homed running))).rosterIndex 1000 = some 4 ∧ homed.state ≠ .expected
      ∧ (livened (s 41 0 (withEntry homed running))).roster.entries[(4 : Fin 64)] = some homed
      ∧ (livened (s 42 0 (withEntry expected running))).rosterIndex 1000 = some 4
      ∧ (livened (s 42 0 (withEntry expected running))).roster.entries[(4 : Fin 64)] = some expected
      ∧ ¬(expected.reservation = some ⟨23, 42, 10000⟩)
      ∧ ((livened (s 41 0 running)).rosterIndex 1000 = none ∧ (s 41 0 running).strays.entryOf 1000 = none)
      ∧ ((livened (s 41 0 (withStray 1000 sixty))).rosterIndex 1000 = none
        ∧ ((s 41 0 (withStray 1000 sixty)).strays.entryOf 1000).isSome = true
        ∧ (if (byteAt (f 41 0).body 6).getLsbD 0 then 64 else 60) ≤ (livened (s 41 0 (withStray 1000 sixty))).occupancy)
      ∧ ((livened (s 41 1 (withStray 1000 sixty))).occupancy < (if (byteAt (f 41 1).body 6).getLsbD 0 then 64 else 60)
        ∧ lowestFree (livened (s 41 1 (withStray 1000 sixty))).roster.entries = some 60) := by decide +kernel

theorem witness_RepeatedAskRenewsReservation :
    let body : List Byte := radioBytes 1000 ++ [41, 92, 104, 0]
    ∀ u ∈ [running, silenced running],
      let s := withEntry expected (received 17 .ask body u)
      s.resetHeld = false ∧ s.link.rx = completeFrame 23 17 .ask body :: [] ∧ s.loader.opState = .running
        ∧ (17 : Byte) = byteAt s.loader.image 1 ∧ s.hearing.neighbourOf 23 = some 0
        ∧ s.port.listenOnly = false ∧ s.port.hold ≠ .closed
        ∧ s.rosterIndex (radioAt body 0) = some 4 ∧ s.roster.entries[(4 : Fin 64)] = some expected
        ∧ expected.state = .expected ∧ expected.reservation = some ⟨23, byteAt body 3, 10000⟩ := by decide +kernel

theorem witness_HomedIsTakenByEntryState :
    let body : List Byte := radioBytes 1000 ++ [6, 17]
    let s (u : State) := received 0 .homed body u
    let f := completeFrame 23 0 .homed body
    (livened (s running)).rosterIndex 1000 = none
      ∧ (∀ u ∈ [withEntry expected running, leaves, withEntry homed running, silenced (withEntry homed running)],
        u.resetHeld = false ∧ (s u).link.rx = f :: [] ∧ u.loader.opState = .running ∧ f.kind = .homed ∧ f.dest = 0
          ∧ u.hearing.neighbourOf 23 = some 0 ∧ (livened (s u)).noneAskReady = true
          ∧ (livened (s u)).rosterIndex (radioAt f.body 0) = some 4
          ∧ ((livened (s u)).roster.entries[(4 : Fin 64)].map RosterEntry.radio) = some (radioAt f.body 0))
      ∧ ((leaves.departureIndex 1000).isSome = true ∧ running.departureIndex 1000 = none ∧ running.hearing.neighbourOf 40 = none)
      ∧ leaves.targetSite 1000 = some 23 ∧ leaves.targetSite 1000 ≠ some 31
      ∧ keepsHandset 17 23 homed.count (some 4) = true ∧ keepsHandset 17 23 homed.count (some 6) = false := by
  decide +kernel

theorem witness_ConflictTestAgreesAtBothSites : (17 : Byte) ≠ 23 := by decide

/-- A HEARD frame that waits. -/
def waitingHeard : TxItem := { frame := completeFrame 17 0 .heard [0], keyed := false }

/-- The transmitter idle with an empty queue, the channel quiet for `n` ticks. -/
def idleFor (n : Nat) (s : State) : State :=
  { s with link := { s.link with quietSince := some { time := s.now - BitVec.ofNat 32 n, old := false } } }

theorem witness_CompletedFramePassesElsewhere :
    ((17 : Byte) ≠ 0 ∧ (17 : Byte) ≠ 255 ∧ (23 : Byte) ≠ 17 ∧ bodyFits .heard (6 :: List.replicate 24 200) = true)
      ∧ (transmitter .muted []).link.txState = .muted ∧ faulted.loader.opState ≠ .running
      ∧ (∀ tx ∈ [[waiting false], [waitingHeard], waitingHeard :: List.replicate 15 (waiting false),
            List.replicate 16 (waiting false)],
          (transmitter (.backoff 9) tx).loader.opState = .running ∧ (transmitter (.backoff 9) tx).link.txState ≠ .muted
            ∧ tx ≠ [])
      ∧ (∀ x ∈ [waiting false], x.frame.kind ≠ .heard) ∧ waitingHeard.frame.kind = .heard ∧ waitingHeard.keyed = false
      ∧ (∀ x ∈ List.replicate 16 (waiting false), x.frame.kind ≠ .heard)
      ∧ 16 ≤ (waitingHeard :: List.replicate 15 (waiting false)).length ∧ 16 ≤ (List.replicate 16 (waiting false)).length
      ∧ (running.loader.opState = .running ∧ running.link.tx = [] ∧ running.link.txState = .idle
        ∧ running.link.window = some 16 ∧ running.par .idleGap = 4)
      ∧ (∀ n ∈ [3, 4, 19, 20], (idleFor n running).link.quietSince = some ⟨running.now - BitVec.ofNat 32 n, false⟩
        ∧ ((idleFor n running).now - (running.now - BitVec.ofNat 32 n)).toNat = n)
      ∧ (shiftRegister 0x1111).toNat % 16 ≠ 0 ∧ (shiftRegister 0x0880).toNat % 16 = 0 := by
  decide +kernel

theorem witness_StrobeCountsOneRepeat :
    running.resetHeld = false ∧ running.steer.strRdy = false ∧ eightOrders.resetHeld = false
      ∧ eightOrders.steer.strRdy = true
      ∧ eightOrders.steer.orders = order .refuse 3000 1 :: eightOrders.steer.orders.tail
      ∧ (order .refuse 3000 1).repeats ≤ 1 ∧ ¬(order .move 2000 3).repeats ≤ 1 := by decide +kernel

theorem witness_StatusAndPeekShowAndChangeNothing :
    running.resetHeld = false ∧ running.port.frame = none ∧ 7 ≤ 7 ∧ running.port.busy = false ∧ 1 ≤ 1 := by
  decide +kernel

theorem witness_TakeAttentionClearsShownFlags :
    faulted.portReady = true ∧ (stepped (.takeAttention .command) faulted).resetHeld = false
      ∧ 1 ≤ 1 := by decide +kernel

/-- A part that fetches an entry. -/
def fetching : State :=
  { running with port := { running.port with busy := true, fetch := some { table := 2, position := some 127 } } }

theorem witness_TablesAreReadThroughTheHolder :
    running.portReady = true ∧ (7 : Byte).toNat < 8 ∧ ¬(8 : Byte).toNat < 8 ∧ running.port.holder.length = 40 ∧ 40 ≤ 40
      ∧ (fetching.resetHeld = false ∧ fetching.port.fetch = some { table := 2, position := some 127 })
      ∧ ∀ x ∈ [(⟨0, some 4⟩ : Fetch), ⟨0, some 63⟩, ⟨0, none⟩, ⟨1, some 3⟩, ⟨1, some 31⟩, ⟨2, some 0⟩, ⟨3, some 0⟩,
            ⟨3, some 7⟩, ⟨4, some 0⟩, ⟨4, some 3⟩, ⟨5, some 0⟩, ⟨5, some 1⟩, ⟨6, some 0⟩, ⟨6, some 7⟩, ⟨7, some 0⟩,
            ⟨7, some 7⟩, ⟨7, none⟩],
        ({ fetching with port := { fetching.port with fetch := some x } }).port.fetch = some x := by decide +kernel

theorem witness_ReadCountersReducesByTheShown :
    running.portReady = true ∧ 33 ≤ 33
      ∧ (stepped (.readCounters 1 .arguments) (stepped (.readCounters 1 .command) running)).resetHeld = false := by
  decide +kernel

theorem witness_HoldAndListenOnlyAreSet :
    running.portReady = true ∧ 1 ≤ 1 ∧ ((2 : Byte), HoldMode.closed) ∈ [((0 : Byte), HoldMode.opened), (1, .hold), (2, .closed)]
      ∧ running.port.hold ≠ .closed ∧ running.port.hold = .opened ∧ 2 < (3 : Byte).toNat ∧ 1 < (2 : Byte).toNat
      ∧ running.loader.opState = .running ∧ faulted.loader.opState ≠ .running ∧ running.port.listenOnly ≠ true
      ∧ running.port.listenOnly = false := by decide +kernel

/-- Seven radios pinned. -/
def pinned : State :=
  { running with roster := { running.roster with pins := (List.range 7).map fun n => BitVec.ofNat 24 (1000 + n) } }

theorem witness_PinListIsEdited :
    pinned.portReady = true ∧ 3 ≤ 3 ∧ (1006 : Radio) ∈ pinned.roster.pins ∧ (1007 : Radio) ∉ pinned.roster.pins
      ∧ (1007 : Radio) ≠ 0 ∧ (1007 : Radio) ≠ 16777215 ∧ pinned.roster.pins.length < 8
      ∧ 8 ≤ (pinned.roster.pins ++ [1007]).length ∧ (16777215 : Radio) ∉ pinned.roster.pins := by decide +kernel

theorem witness_FlushEmptiesTheTablesUntilComplete :
    running.portReady = true ∧ running.loader.opState = .running ∧ faulted.portReady = true
      ∧ faulted.loader.opState ≠ .running ∧ (stepped (.flush (.whole 0)) running).resetHeld = false
      ∧ (stepped (.flush (.whole 0)) running).loader.opState = .flushing := by decide +kernel

theorem witness_RefusedAndShortFramesAreDropped :
    running.resetHeld = false ∧ running.port.frame = none
      ∧ (0x04 : Byte) ∉ [(0x01 : Byte), 0x02, 0x03, 0x10, 0x11, 0x12, 0x20, 0x21, 0x22, 0x23, 0x30, 0x31]
      ∧ fetching.resetHeld = false ∧ fetching.port.frame = none ∧ fetching.port.busy = true ∧ running.portReady = true
      ∧ 39 < 40 := by decide +kernel

/-! The invariants: a part in RUNNING that holds one entry meets every law and takes a step. -/

/-- Site 17 in RUNNING with one HOMED entry, a tick waiting. -/
def lawful : State := { withEntry homed running with pending := [.tick] }

theorem lawful_entry {i : Fin 64} {e : RosterEntry} (h : lawful.roster.entries[i] = some e) : i = 4 ∧ e = homed := by
  have hi : lawful.roster.entries[i] = if (4 : Fin 64) = i then some homed else none := by
    clear h; revert i; decide +kernel
  rw [hi] at h
  split at h
  · next k => exact ⟨k.symm, (Option.some.inj h).symm⟩
  · cases h

theorem lawful_lock (p : Fin 8) : lawful.intake.locks[p] = none := by revert p; decide +kernel

theorem lawful_stray (j : Fin 32) : lawful.strays.entries[j] = none := by revert j; decide +kernel

theorem lawful_hearing (j : Fin 128) : lawful.hearing.table[j] = none := by revert j; decide +kernel

theorem lawful_departure (p : Fin 4) : lawful.nego.departures[p] = none := by revert p; decide +kernel

theorem lawful_departures : DepartureLaw lawful where
  roster := fun i j e f he hf _ => (lawful_entry he).1.trans (lawful_entry hf).1.symm
  fields := fun i e he => by
    obtain ⟨-, rfl⟩ := lawful_entry he
    constructor <;> decide
  hasEntry := fun p d h => by rw [lawful_departure] at h; cases h
  hasRecord := fun i e he hs => by
    obtain ⟨-, rfl⟩ := lawful_entry he
    rcases hs with hs | hs <;> cases hs
  oneRecord := fun p q d d' h => by rw [lawful_departure] at h; cases h

theorem lawful_reset : ResetLaw lawful := by unfold ResetLaw; decide +kernel

theorem lawful_image : ImageLaw lawful where
  reset := lawful_reset
  size := by decide +kernel
  site := by decide +kernel
  ranges := fun _ p => by cases p <;> decide +kernel

theorem witness_EveryStepKeepsTheTableLaws :
    (∃ t, step lawful = .next t) ∧ LockLaw lawful ∧ LevelLaw lawful ∧ RadioLaw lawful ∧ PinLaw lawful := by
  refine ⟨⟨_, rfl⟩, ?_, ⟨?_, ?_, ?_⟩, ⟨?_, ?_, ?_⟩, ⟨by decide +kernel, by decide +kernel, fun r h => by cases h⟩⟩
  · intro p l h; rw [lawful_lock] at h; cases h
  · intro i e h; obtain ⟨-, rfl⟩ := lawful_entry h; decide
  · intro j e h; rw [lawful_stray] at h; cases h
  · intro j e h; rw [lawful_hearing] at h; cases h
  · exact lawful_departures.roster
  · intro i j e f h; rw [lawful_stray] at h; cases h
  · intro i j e f _ h; rw [lawful_stray] at h; cases h

theorem witness_EveryStepKeepsDeparturesAndHearingsFitted :
    (∃ t, step lawful = .next t) ∧ DepartureLaw lawful ∧ HearingLaw lawful := by
  refine ⟨⟨_, rfl⟩, lawful_departures, ⟨lawful_reset, fun _ => lawful_hearing, ?_, ?_, ?_⟩⟩
  · intro j e h; rw [lawful_hearing] at h; cases h
  · intro j e h; rw [lawful_hearing] at h; cases h
  · intro i j e f h; rw [lawful_hearing] at h; cases h

theorem witness_EveryStepKeepsTheSteerLaw :
    (∃ t, step lawful = .next t) ∧ PresentationLaw lawful ∧ ImageLaw lawful ∧ DepartureLaw lawful ∧ SteerLaw lawful := by
  have ho : lawful.steer.orders = [] := rfl
  have ha : lawful.steer.admission = [] := rfl
  refine ⟨⟨_, rfl⟩, ?_, lawful_image, lawful_departures, ?_, ?_, ?_, ?_, ?_, ?_⟩
  · unfold PresentationLaw; rw [ho]; exact ⟨rfl, rfl⟩
  all_goals simp [ho, ha]

theorem lawful_link : LinkLaw lawful where
  reset := lawful_reset
  rxSize := by decide +kernel
  txSize := by decide +kernel
  classes := .nil
  oneHeard := by decide +kernel
  keyed := by decide +kernel
  silent := fun _ => rfl
  waits := fun h => by rcases h with ⟨_, h⟩ | ⟨_, h⟩ <;> cases h
  muted := by decide +kernel
  notRunning := fun h => by cases h
  quiet := by decide +kernel

theorem lawful_backoff : BackoffLaw lawful where
  reset := lawful_reset
  window := fun w h => by cases h; decide
  seeded := by decide +kernel
  count := fun b h => by cases h
  held := fun b h => by cases h

theorem witness_EveryStepKeepsTheLinkLaws :
    (∃ t, step lawful = .next t) ∧ LinkLaw lawful ∧ BackoffLaw lawful ∧ FrameLaw lawful :=
  ⟨⟨_, rfl⟩, lawful_link, lawful_backoff, lawful_image, fun x h => by cases h⟩

theorem witness_EveryStepKeepsThePortLaw : (∃ t, step lawful = .next t) ∧ PortLaw lawful := by
  have hf : lawful.port.frame = none := rfl
  refine ⟨⟨_, rfl⟩, lawful_reset, by decide +kernel, by decide +kernel, ?_, by decide +kernel⟩
  simp [hf]

end Sys2Proof.Tests
end

/-! ## The laws of locks, levels, radios and pins under every operation -/

namespace Sys2Proof.Machine

/-! ### Levels (R18 to R22) -/

/-- The own level of an F in range is in range (R18, R23). -/
theorem ownLevel_le {f : Nat} (h : f ≤ 3200) : ownLevel f ≤ 200 := by unfold ownLevel; omega

theorem effectiveLevel_le {v : Nat} (h : v ≤ 200) (q : Fin 8) : effectiveLevel v q ≤ 200 := by
  unfold effectiveLevel; omega

theorem levelOfByte_le (b : Byte) : levelOfByte b ≤ 200 := Nat.min_le_right ..

theorem seedF_le {v : Nat} (h : v ≤ 200) (q : Fin 8) : seedF v q ≤ 3200 := by
  have := effectiveLevel_le h q
  unfold seedF; omega

/-- The filter step never passes its target: rising, it is at most the difference. -/
theorem filterDelta_le_max (shift : Nat) (delta : Int) : filterDelta shift delta ≤ max delta 0 := by
  unfold filterDelta
  dsimp only
  rcases Int.lt_or_le delta 0 with hneg | hpos
  · have hq : 0 ≤ (-delta).tdiv (2 ^ shift) := Int.tdiv_nonneg (by omega) (by positivity)
    rw [Int.neg_tdiv] at hq
    split
    · simp [Int.sign_eq_neg_one_of_neg hneg]
    · exact le_trans (by omega) (le_max_right ..)
  · have hq : delta.tdiv (2 ^ shift) ≤ delta := Int.tdiv_le_self _ hpos
    split
    · rcases hpos.eq_or_lt with rfl | hlt
      · simp
      · rw [Int.sign_eq_one_of_pos hlt]; exact le_trans hlt (le_max_left ..)
    · exact le_trans hq (le_max_left ..)

/-- A filter step stays below the greater of F and the level it steps toward (R22). -/
theorem filterStep_le (shift f le : Nat) : filterStep shift f le ≤ max f (le * 16) := by
  have := filterDelta_le_max shift ((le * 16 : Nat) - (f : Int))
  unfold filterStep; omega

/-- A sample in range keeps F in range (R18, R20, R22). -/
theorem observeF_le {f v : Nat} (hf : f ≤ 3200) (hv : v ≤ 200) (shift fadeLimit : Nat) (q : Fin 8) :
    observeF shift fadeLimit f v q ≤ 3200 := by
  have hown := ownLevel_le hf
  have heff := effectiveLevel_le hv q
  have hclamp : fadeClamp fadeLimit f (effectiveLevel v q) ≤ 200 := by unfold fadeClamp; omega
  have := filterStep_le shift f (fadeClamp fadeLimit f (effectiveLevel v q))
  unfold observeF; omega

/-! ### Changes after which nothing new stands in a table -/

/-- From `s` to `t` locks and pins stay, no radio joins the roster or the stray list, every F in range stays in range, and a
hearing entry that is new has its level in range. -/
structure NoneJoins (s t : State) : Prop where
  locks : t.intake.locks = s.intake.locks
  pins : t.roster.pins = s.roster.pins
  roster : ∀ (i : Fin 64) e, t.roster.entries[i] = some e →
    ∃ e', s.roster.entries[i] = some e' ∧ e.radio = e'.radio ∧ (e'.f ≤ 3200 → e.f ≤ 3200)
  strays : ∀ (j : Fin 32) e, t.strays.entries[j] = some e →
    ∃ e', s.strays.entries[j] = some e' ∧ e.radio = e'.radio ∧ (e'.f ≤ 3200 → e.f ≤ 3200)
  hearing : ∀ (j : Fin 128) e, t.hearing.table[j] = some e → s.hearing.table[j] = some e ∨ e.level ≤ 200

/-- Only the locks, the roster, and the entries of stray list and hearing table matter. -/
theorem NoneJoins.of_blocks {s t : State} (hi : t.intake.locks = s.intake.locks) (hr : t.roster = s.roster)
    (hs : t.strays.entries = s.strays.entries) (hh : t.hearing.table = s.hearing.table) : NoneJoins s t where
  locks := hi
  pins := by rw [hr]
  roster := fun i e h => ⟨e, by rw [← hr]; exact h, rfl, id⟩
  strays := fun j e h => ⟨e, by rw [← hs]; exact h, rfl, id⟩
  hearing := fun j e h => .inl (by rw [← hh]; exact h)

theorem NoneJoins.refl (s : State) : NoneJoins s s := .of_blocks rfl rfl rfl rfl

theorem NoneJoins.trans {s t u : State} (h : NoneJoins s t) (k : NoneJoins t u) : NoneJoins s u where
  locks := k.locks.trans h.locks
  pins := k.pins.trans h.pins
  roster := fun i e he => by
    obtain ⟨e', he', hr', hf'⟩ := k.roster i e he
    obtain ⟨e'', he'', hr'', hf''⟩ := h.roster i e' he'
    exact ⟨e'', he'', hr'.trans hr'', hf' ∘ hf''⟩
  strays := fun j e he => by
    obtain ⟨e', he', hr', hf'⟩ := k.strays j e he
    obtain ⟨e'', he'', hr'', hf''⟩ := h.strays j e' he'
    exact ⟨e'', he'', hr'.trans hr'', hf' ∘ hf''⟩
  hearing := fun j e he => (k.hearing j e he).elim (h.hearing j e) .inr

/-- A change that is followed by one of the blocks without radios and levels. -/
theorem NoneJoins.then {s t u : State} (h : NoneJoins s t) (hi : u.intake.locks = t.intake.locks)
    (hr : u.roster = t.roster) (hs : u.strays.entries = t.strays.entries) (hh : u.hearing.table = t.hearing.table) :
    NoneJoins s u :=
  h.trans (.of_blocks hi hr hs hh)

/-- A roster whose entries stand where they stood. -/
theorem NoneJoins.of_roster (s : State) (x : RosterEngine) (hp : x.pins = s.roster.pins)
    (hr : ∀ (i : Fin 64) e, x.entries[i] = some e →
      ∃ e', s.roster.entries[i] = some e' ∧ e.radio = e'.radio ∧ (e'.f ≤ 3200 → e.f ≤ 3200)) :
    NoneJoins s (s.withRoster x) :=
  ⟨rfl, hp, hr, fun _ e h => ⟨e, h, rfl, id⟩, fun _ _ h => .inl h⟩

/-- A stray list whose entries stand where they stood. -/
theorem NoneJoins.of_strays (s : State) (x : StrayTracker)
    (hs : ∀ (j : Fin 32) e, x.entries[j] = some e →
      ∃ e', s.strays.entries[j] = some e' ∧ e.radio = e'.radio ∧ (e'.f ≤ 3200 → e.f ≤ 3200)) :
    NoneJoins s (s.withStrays x) :=
  ⟨rfl, rfl, fun _ e h => ⟨e, h, rfl, id⟩, hs, fun _ _ h => .inl h⟩

/-- A hearing table whose new entries have levels in range. -/
theorem NoneJoins.of_hearing (s : State) (x : Hearing)
    (hh : ∀ (j : Fin 128) e, x.table[j] = some e → s.hearing.table[j] = some e ∨ e.level ≤ 200) :
    NoneJoins s (s.withHearing x) :=
  ⟨rfl, rfl, fun _ e h => ⟨e, h, rfl, id⟩, fun _ e h => ⟨e, h, rfl, id⟩, hh⟩

/-- What stands in a table after entries were dropped stood there before. -/
theorem eq_some_of_dropEntries {α : Type} {n : Nat} {p : α → Bool} {v : Vector (Option α) n} {i : Fin n} {e : α}
    (h : (dropEntries p v)[i] = some e) : v[i] = some e ∧ p e = false := by
  rw [dropEntries_at] at h
  simpa using Option.filter_eq_some_iff.mp h

/-- What stands in a table after one position was freed stood there before. -/
theorem eq_some_of_set_none {α : Type} {n : Nat} {v : Vector (Option α) n} {i j : Fin n} {e : α}
    (h : (v.set i none)[j] = some e) : v[j] = some e := by
  rw [getElem_setSlot] at h
  split at h
  · cases h
  · exact h

/-! ### The roster's entries changed, evaluated, removed -/

theorem NoneJoins.updateEntry (i : Fin 64) (f : RosterEntry → RosterEntry) (s : State)
    (hf : ∀ e, (f e).radio = e.radio ∧ (e.f ≤ 3200 → (f e).f ≤ 3200)) : NoneJoins s (s.updateEntry i f) := by
  refine .of_roster s _ rfl fun j e h => ?_
  simp only [getElem_updateAt] at h
  split at h
  · next hji =>
    subst hji
    obtain ⟨e', he', rfl⟩ := Option.map_eq_some_iff.mp h
    exact ⟨e', he', hf e'⟩
  · exact ⟨e, h, rfl, id⟩

/-- An entry changed in neither radio nor F. -/
theorem NoneJoins.updateEntry_same (i : Fin 64) (f : RosterEntry → RosterEntry) (s : State)
    (hr : ∀ e, (f e).radio = e.radio) (hf : ∀ e, (f e).f = e.f) : NoneJoins s (s.updateEntry i f) :=
  .updateEntry i f s fun e => ⟨hr e, fun h => by rw [hf]; exact h⟩

theorem NoneJoins.evalAt (i : Fin 64) (s : State) : NoneJoins s (s.evalAt i) :=
  .updateEntry_same i _ s s.evaluated_radio s.evaluated_f

theorem NoneJoins.mapRoster (g : RosterEntry → RosterEntry) (s : State) (hr : ∀ e, (g e).radio = e.radio)
    (hf : ∀ e, (g e).f = e.f) : NoneJoins s (s.withRoster { s.roster with entries := mapEntries g s.roster.entries }) := by
  refine .of_roster s _ rfl fun i e h => ?_
  simp only [mapEntries_at] at h
  obtain ⟨e', he', rfl⟩ := Option.map_eq_some_iff.mp h
  exact ⟨e', he', hr e', fun h => by rw [hf]; exact h⟩

theorem NoneJoins.evalRadios (p : Radio → Bool) (s : State) : NoneJoins s (s.evalRadios p) :=
  .mapRoster _ s (fun e => by split <;> simp) (fun e => by split <;> simp)

theorem NoneJoins.evalAll (s : State) : NoneJoins s s.evalAll := .mapRoster _ s s.evaluated_radio s.evaluated_f

theorem NoneJoins.pruneRadio (r : Radio) (s : State) : NoneJoins s (s.withHearing (s.hearing.pruneRadio r)) :=
  .of_hearing s _ fun _ _ h => .inl (eq_some_of_dropEntries h).1

/-- What a removal leaves of roster and hearing table; the blocks it also changes hold no radio and no level. -/
theorem NoneJoins.removeEntry (i : Fin 64) (s : State) : NoneJoins s (s.removeEntry i) := by
  cases he : s.roster.entries[i] with
  | none => unfold State.removeEntry; rw [he]; exact .refl s
  | some e =>
    have hfreed : NoneJoins s (s.withRoster { s.roster with entries := s.roster.entries.set i none }) :=
      .of_roster s _ rfl fun j x h => ⟨x, eq_some_of_set_none h, rfl, id⟩
    have hbare := hfreed.trans (.pruneRadio e.radio _)
    unfold State.removeEntry
    rw [he]
    dsimp only
    split
    · exact hbare
    · exact hbare
    · exact hbare.then rfl rfl rfl rfl
    · exact hbare.then rfl rfl rfl rfl

/-! ### Departures -/

theorem NoneJoins.openDeparture (i : Fin 64) (n : Fin 8) (s : State) : NoneJoins s (s.openDeparture i n) := by
  unfold State.openDeparture
  split
  · next e p _ _ =>
    let recorded := s.withNego
      { s.nego with
        departures := s.nego.departures.set p (some (s.newDeparture i e n)), sequence := s.nego.sequence + 1 }
    have hrec : NoneJoins s recorded := .of_blocks rfl rfl rfl rfl
    exact (hrec.trans (.updateEntry_same i RosterEntry.toAsking recorded (fun _ => rfl) fun _ => rfl)).then
      (by simp [recorded]) (by simp [recorded]) (by simp [recorded]) (by simp [recorded])
  · exact .refl s

theorem NoneJoins.arbiter (s : State) : NoneJoins s s.arbiter := by
  unfold State.arbiter
  split
  · split
    · exact .openDeparture _ _ s
    · exact .refl s
  · exact .refl s

theorem NoneJoins.revert (d : Departure) (s : State) : NoneJoins s (s.revert d) := by
  let u : State := if d.phase = .leaving then (s.dropDeparture d.radio).removeOrder d.radio else s.dropDeparture d.radio
  have hu : NoneJoins s u := by
    simp only [u]
    split <;> exact .of_blocks (by simp) (by simp) (by simp) (by simp)
  exact (hu.trans (.updateEntry_same d.rosterIndex (s.returned d.target) u (fun _ => rfl) fun _ => rfl)).trans (.evalAt _ _)

/-- A return to HOMED, counted, with the arbiter taken. -/
theorem NoneJoins.revert_arbiter (d : Departure) (b : Bool) (c : Counter) (s : State) :
    NoneJoins s (((s.revert d).bumpIf b c).arbiter) :=
  ((NoneJoins.revert d s).then (by simp) (by simp) (by simp) (by simp)).trans (.arbiter _)

theorem NoneJoins.depart (i : Fin 64) (r : Radio) (site : Byte) (o : Departed) (s : State) :
    NoneJoins s (s.depart i r site o) := by
  have hgone : NoneJoins s ((((s.removeEntry i).dropDeparture r).removeOrder r).record r site o) :=
    (NoneJoins.removeEntry i s).then (by simp) (by simp) (by simp) (by simp)
  unfold State.depart
  dsimp only
  split
  · exact hgone.trans (.arbiter _)
  · exact hgone

theorem NoneJoins.leaveEnds (d : Departure) (s : State) : NoneJoins s (s.leaveEnds d) := by
  unfold State.leaveEnds
  split
  · exact .revert_arbiter d true .steerFailed s
  · exact .depart _ _ _ _ s

theorem NoneJoins.resendAsk (p : Fin 4) (d : Departure) (s : State) : NoneJoins s (s.resendAsk p d) :=
  .of_blocks (by simp) (by simp) (by simp) (by simp [State.resendAsk])

theorem NoneJoins.askTimesOut (d : Departure) (s : State) : NoneJoins s (s.askTimesOut d) :=
  .revert_arbiter d true .asksTimedOut s

theorem NoneJoins.dwellExpires (i : Fin 64) (e : RosterEntry) (s : State) : NoneJoins s (s.dwellExpires i e) := by
  have hundwelt : NoneJoins s (s.updateEntry i fun e => { e with dwell := none }) :=
    .updateEntry_same i _ s (fun _ => rfl) fun _ => rfl
  unfold State.dwellExpires
  dsimp only
  split
  · split
    · split
      · exact hundwelt.trans (.openDeparture _ _ _)
      · exact hundwelt
    · exact hundwelt.trans (.updateEntry_same i _ _ (fun _ => rfl) fun _ => rfl)
  · exact hundwelt

/-! ### Dispatched frames -/

theorem NoneJoins.acceptTake (p : Fin 4) (d : Departure) (h : Nat) (s : State) : NoneJoins s (s.acceptTake p d h) := by
  let leaving := { d with phase := Phase.leaving, deadline := s.due ((h + s.par .leaveMargin) * 10) }
  let recorded := s.withNego { s.nego with departures := s.nego.departures.set p (some leaving) }
  have hrec : NoneJoins s recorded := .of_blocks rfl rfl rfl rfl
  have htaken : NoneJoins s ((recorded.updateEntry d.rosterIndex RosterEntry.toLeaving).offerMove d.radio d.target) :=
    (hrec.trans (.updateEntry_same d.rosterIndex RosterEntry.toLeaving recorded (fun _ => rfl) fun _ => rfl)).then
      (by simp) (by simp) (by simp) (by simp)
  unfold State.acceptTake
  dsimp only
  split
  · exact htaken.trans (.leaveEnds leaving _)
  · exact htaken

theorem NoneJoins.receiveTake (f : LinkFrame) (s : State) : NoneJoins s (s.receiveTake f) := by
  unfold State.receiveTake
  split
  · split
    · exact .acceptTake _ _ _ s
    · exact .refl s
  · exact .refl s

theorem NoneJoins.receiveDecline (f : LinkFrame) (s : State) : NoneJoins s (s.receiveDecline f) := by
  unfold State.receiveDecline
  split
  · split
    · next d _ => exact .revert_arbiter d true .asksDeclined s
    · exact .refl s
  · exact .refl s

theorem NoneJoins.conflict (i : Fin 64) (e : RosterEntry) (source : Byte) (c : Option (BitVec 4)) (s : State) :
    NoneJoins s (s.conflict i e source c) := by
  unfold State.conflict
  split
  · exact .of_blocks (by simp) (by simp) (by simp) (by simp)
  · exact .depart _ _ _ _ s

theorem NoneJoins.receiveHomed (f : LinkFrame) (s : State) : NoneJoins s (s.receiveHomed f) := by
  have hcounted : NoneJoins s (s.bump .handoversConfirmed) := .of_blocks (by simp) (by simp) (by simp) (by simp)
  unfold State.receiveHomed
  dsimp only
  split
  · exact .refl s
  · split
    · exact .refl s
    · split
      · exact .removeEntry _ s
      · exact .conflict _ _ _ _ s
      · exact .conflict _ _ _ _ s
      · split
        · exact hcounted.trans (.depart _ _ _ _ _)
        · exact .conflict _ _ _ _ s

/-- Storing a pair puts its own level in the table and no other. -/
theorem Hearing.storePair_level {now : Time} {age : Nat} {n : Fin 8} {pair : Radio × Nat} {h : Hearing} {j : Fin 128}
    {e : HearingEntry} (he : (h.storePair now age n pair).1.table[j] = some e) :
    h.table[j] = some e ∨ e.level = pair.2 := by
  unfold Hearing.storePair at he
  split at he
  · simp only [getElem_setSlot] at he
    split at he
    · cases he; exact .inr rfl
    · exact .inl he
  · exact .inl he

/-- Storing pairs whose levels are in range puts only such levels in the table (R81). -/
theorem Hearing.storePairs_level {now : Time} {age : Nat} {n : Fin 8} {kept : Radio → Bool} {pairs : List (Radio × Nat)}
    (hp : ∀ pair ∈ pairs, pair.2 ≤ 200) {h : Hearing} {j : Fin 128} {e : HearingEntry}
    (he : (h.storePairs now age n kept pairs).1.table[j] = some e) : h.table[j] = some e ∨ e.level ≤ 200 := by
  unfold Hearing.storePairs at he
  generalize ([] : List Radio) = changed at he
  induction pairs generalizing h changed with
  | nil => exact .inl he
  | cons pair pairs ih =>
    have hrest : ∀ x ∈ pairs, x.2 ≤ 200 := fun x hx => hp x (List.mem_cons_of_mem _ hx)
    rw [List.foldl_cons] at he
    split at he
    · rcases ih hrest _ he with hold | hlevel
      · exact (Hearing.storePair_level hold).imp_right fun h => by rw [h]; exact hp pair (List.mem_cons_self ..)
      · exact .inr hlevel
    · exact ih hrest _ he

theorem heardPairs_level_le {body : List Byte} : ∀ pair ∈ heardPairs body, pair.2 ≤ 200 := by
  intro pair hpair
  obtain ⟨k, -, rfl⟩ := List.mem_map.mp hpair
  exact levelOfByte_le _

theorem NoneJoins.hearFrom (n : Fin 8) (s : State) : NoneJoins s (s.hearFrom n) :=
  .of_hearing s _ fun _ _ h => .inl h

theorem NoneJoins.receiveHeard (n : Fin 8) (all : Bool) (body : List Byte) (s : State) :
    NoneJoins s (s.receiveHeard n all body) := by
  have hstored : NoneJoins s (s.withHearing
      (s.hearing.storePairs s.now (s.par .hearingMaxAge * 100) n s.keepsReports (heardPairs body)).1) :=
    .of_hearing s _ fun _ _ h => Hearing.storePairs_level heardPairs_level_le h
  unfold State.receiveHeard
  exact hstored.trans (.evalRadios _ _)

/-! ### Changes that keep the laws -/

/-- From `s` to `t` each of the four laws of the tables is kept. -/
structure KeepsTableLaws (s t : State) : Prop where
  locks : LockLaw s → LockLaw t
  levels : LevelLaw s → LevelLaw t
  radios : RadioLaw s → RadioLaw t
  pins : PinLaw s → PinLaw t

theorem KeepsTableLaws.refl (s : State) : KeepsTableLaws s s := ⟨id, id, id, id⟩

theorem KeepsTableLaws.trans {s t u : State} (h : KeepsTableLaws s t) (k : KeepsTableLaws t u) : KeepsTableLaws s u :=
  ⟨k.locks ∘ h.locks, k.levels ∘ h.levels, k.radios ∘ h.radios, k.pins ∘ h.pins⟩

theorem LockLaw.congr {s t : State} (h : t.intake.locks = s.intake.locks) (hs : LockLaw s) : LockLaw t := by
  unfold LockLaw; rw [h]; exact hs

theorem PinLaw.congr {s t : State} (h : t.roster.pins = s.roster.pins) (hs : PinLaw s) : PinLaw t :=
  ⟨by rw [h]; exact hs.size, by rw [h]; exact hs.nodup, by rw [h]; exact hs.valid⟩

/-- Where nothing joins a table, the laws are kept. -/
theorem NoneJoins.keeps {s t : State} (h : NoneJoins s t) : KeepsTableLaws s t where
  locks := LockLaw.congr h.locks
  pins := PinLaw.congr h.pins
  levels := fun hs =>
    { roster := fun i e he => by
        obtain ⟨e', he', -, hf⟩ := h.roster i e he
        exact hf (hs.roster i e' he')
      strays := fun j e he => by
        obtain ⟨e', he', -, hf⟩ := h.strays j e he
        exact hf (hs.strays j e' he')
      hearing := fun j e he => (h.hearing j e he).elim (hs.hearing j e) id }
  radios := fun hs =>
    { roster := fun i j e f he hf hef => by
        obtain ⟨e', he', hre, -⟩ := h.roster i e he
        obtain ⟨f', hf', hrf, -⟩ := h.roster j f hf
        exact hs.roster i j e' f' he' hf' (by rw [← hre, ← hrf, hef])
      strays := fun i j e f he hf hef => by
        obtain ⟨e', he', hre, -⟩ := h.strays i e he
        obtain ⟨f', hf', hrf, -⟩ := h.strays j f hf
        exact hs.strays i j e' f' he' hf' (by rw [← hre, ← hrf, hef])
      apart := fun i j e f he hf => by
        obtain ⟨e', he', hre, -⟩ := h.roster i e he
        obtain ⟨f', hf', hrf, -⟩ := h.strays j f hf
        rw [hre, hrf]
        exact hs.apart i j e' f' he' hf' }

/-- Where only blocks without locks, radios and levels change, the laws are kept. -/
theorem KeepsTableLaws.of_blocks {s t : State} (hi : t.intake.locks = s.intake.locks) (hr : t.roster = s.roster)
    (hs : t.strays.entries = s.strays.entries) (hh : t.hearing.table = s.hearing.table) : KeepsTableLaws s t :=
  (NoneJoins.of_blocks hi hr hs hh).keeps

/-! ### A radio joins the roster or the stray list -/

/-- A radio that the search of the roster does not find stands nowhere in it. -/
theorem radio_ne_of_rosterIndex_none {s : State} {r : Radio} (h : s.rosterIndex r = none) {i : Fin 64} {e : RosterEntry}
    (he : s.roster.entries[i] = some e) : e.radio ≠ r := by
  simpa using findEntry_none.mp h i e he

/-- A radio that the search of the stray list does not find stands nowhere in it. -/
theorem radio_ne_of_indexOf_none {t : StrayTracker} {r : Radio} (h : t.indexOf r = none) {j : Fin 32} {e : StrayEntry}
    (he : t.entries[j] = some e) : e.radio ≠ r := by
  simpa using findEntry_none.mp h j e he

/-- In a table where one entry per radio stands, an entry of a radio that is not there may be put. -/
theorem onePerRadio_set {α : Type} {n : Nat} {radio : α → Radio} {v : Vector (Option α) n} {k : Fin n} {x : α}
    (hv : ∀ (i j : Fin n) e f, v[i] = some e → v[j] = some f → radio e = radio f → i = j)
    (hx : ∀ (i : Fin n) e, v[i] = some e → radio e ≠ radio x) (i j : Fin n) (e f : α)
    (he : (v.set k (some x))[i] = some e) (hf : (v.set k (some x))[j] = some f) (h : radio e = radio f) : i = j := by
  rw [getElem_setSlot] at he hf
  split at he <;> split at hf
  · next hi hj => rw [hi, hj]
  · cases he; exact absurd h.symm (hx j f hf)
  · cases hf; exact absurd h (hx i e he)
  · exact hv i j e f he hf h

/-- What stands in a table after an entry was put is that entry, or stood there before. -/
theorem eq_or_eq_some_of_set {α : Type} {n : Nat} {v : Vector (Option α) n} {k i : Fin n} {x e : α}
    (h : (v.set k (some x))[i] = some e) : e = x ∨ v[i] = some e := by
  rw [getElem_setSlot] at h
  split at h
  · exact .inl (Option.some.inj h).symm
  · exact .inr h

/-- The creation of an entry for a radio that has none keeps the laws: its stray entry goes in the same event (R34, R65). -/
theorem KeepsTableLaws.createEntry {s : State} {e : RosterEntry} (i : Fin 64) (hr : s.rosterIndex e.radio = none)
    (hf : LevelLaw s → e.f ≤ 3200) : KeepsTableLaws s (s.createEntry i e) where
  locks := LockLaw.congr (by rw [State.createEntry_intake])
  pins := PinLaw.congr rfl
  levels := fun hs =>
    { roster := fun k x hx => by
        rcases eq_or_eq_some_of_set hx with rfl | hx
        · exact hf hs
        · exact hs.roster k x hx
      strays := fun j x hx => hs.strays j x (eq_some_of_dropEntries hx).1
      hearing := fun j x hx => hs.hearing j x hx }
  radios := fun hs =>
    { roster := onePerRadio_set hs.roster fun _ _ => radio_ne_of_rosterIndex_none hr
      strays := fun j k x y hx hy => hs.strays j k x y (eq_some_of_dropEntries hx).1 (eq_some_of_dropEntries hy).1
      apart := fun k j x y hx hy => by
        obtain ⟨hy, hne⟩ := eq_some_of_dropEntries hy
        rcases eq_or_eq_some_of_set hx with rfl | hx
        · exact (ne_of_beq_false hne).symm
        · exact hs.apart k j x y hx hy }

/-- A radio that has neither a roster entry nor a stray entry may join the stray list (R60). -/
theorem KeepsTableLaws.newStray {s : State} {e : StrayEntry} (j : Fin 32) (hr : s.rosterIndex e.radio = none)
    (hs : s.strays.indexOf e.radio = none) (hf : e.f ≤ 3200) :
    KeepsTableLaws s (s.withStrays { s.strays with entries := s.strays.entries.set j (some e) }) where
  locks := id
  pins := PinLaw.congr rfl
  levels := fun h =>
    { roster := h.roster
      strays := fun k x hx => by
        rcases eq_or_eq_some_of_set hx with rfl | hx
        · exact hf
        · exact h.strays k x hx
      hearing := h.hearing }
  radios := fun h =>
    { roster := h.roster
      strays := onePerRadio_set h.strays fun _ _ => radio_ne_of_indexOf_none hs
      apart := fun i k x y hx hy => by
        rcases eq_or_eq_some_of_set hy with rfl | hy
        · exact radio_ne_of_rosterIndex_none hr hx
        · exact h.apart i k x y hx hy }

/-! ### Observations (R16) -/

theorem State.observedF_le (s : State) {f : Nat} {o : Observation} (hf : f ≤ 3200) (ho : o.level ≤ 200) :
    s.observedF f o ≤ 3200 :=
  observeF_le hf ho _ _ _

theorem NoneJoins.refresh (i : Fin 64) {o : Observation} (s : State) (ho : o.level ≤ 200) :
    NoneJoins s (s.updateEntry i (s.refreshed o)) :=
  .updateEntry i _ s fun _ => ⟨rfl, fun h => s.observedF_le h ho⟩

theorem NoneJoins.sight (i : Fin 64) {o : Observation} (s : State) (ho : o.level ≤ 200) :
    NoneJoins s (s.updateEntry i (s.sighted o)) := by
  refine .updateEntry i _ s fun e => ?_
  unfold State.sighted
  split
  · exact ⟨rfl, fun h => s.observedF_le h ho⟩
  · exact ⟨rfl, id⟩
  · exact ⟨rfl, id⟩
  · exact ⟨rfl, id⟩

theorem NoneJoins.arrive (i : Fin 64) (e : RosterEntry) {o : Observation} (s : State) (ho : o.level ≤ 200) :
    NoneJoins s (s.arrive i e o) := by
  have harrived : NoneJoins s (s.updateEntry i (s.arrived o)) :=
    .updateEntry i _ s fun _ => ⟨rfl, fun h => s.observedF_le h ho⟩
  exact (harrived.then (by simp) (by simp) (by simp) (by simp)).trans (.evalAt _ _)

theorem NoneJoins.hearLeaving (i : Fin 64) (r : Radio) {o : Observation} (s : State) (ho : o.level ≤ 200) :
    NoneJoins s (s.hearLeaving i r o) := by
  have hrefreshed := NoneJoins.refresh i s ho
  unfold State.hearLeaving
  dsimp only
  split
  · split
    · next d _ => exact hrefreshed.trans (.revert_arbiter d _ .steerFailed _)
    · exact hrefreshed
  · exact hrefreshed.trans (.updateEntry_same i _ _ (fun _ => rfl) fun _ => rfl)

theorem NoneJoins.hearRostered (i : Fin 64) (e : RosterEntry) {o : Observation} (s : State) (ho : o.level ≤ 200) :
    NoneJoins s (s.hearRostered i e o) := by
  unfold State.hearRostered
  split
  · exact (NoneJoins.refresh i s ho).trans (.evalAt _ _)
  · exact .refresh i s ho
  · exact .hearLeaving i _ s ho
  · exact .arrive i e s ho

theorem KeepsTableLaws.refuseHoming (o : Observation) (s : State) : KeepsTableLaws s (s.refuseHoming o) :=
  .of_blocks (by simp) (by simp) (by simp) (by simp)

theorem KeepsTableLaws.home (i : Fin 64) {o : Observation} {s : State} (hr : s.rosterIndex o.radio = none)
    (ho : o.level ≤ 200) : KeepsTableLaws s (s.home i o) := by
  have hcreated : KeepsTableLaws s (s.createEntry i (s.newHomed o)) := .createEntry i hr fun _ => seedF_le ho _
  exact (hcreated.trans (.of_blocks (by simp) (by simp) (by simp) (by simp))).trans (NoneJoins.evalAt i _).keeps

theorem KeepsTableLaws.homeOrRefuse {o : Observation} {s : State} (hr : s.rosterIndex o.radio = none)
    (ho : o.level ≤ 200) : KeepsTableLaws s (s.homeOrRefuse o) := by
  unfold State.homeOrRefuse
  split
  · exact .refl s
  · split
    · split
      · exact .home _ hr ho
      · exact .refuseHoming o s
    · exact .refuseHoming o s

/-- A stray is updated where it stands, or joins as a radio that stood nowhere (R61 to R63). -/
theorem KeepsTableLaws.observeStray {o : Observation} {s : State} (hr : s.rosterIndex o.radio = none)
    (ho : o.level ≤ 200) : KeepsTableLaws s (s.observeStray o) := by
  unfold State.observeStray StrayTracker.observe
  split
  · refine (NoneJoins.of_strays s _ fun k e he => ?_).keeps
    simp only [getElem_updateAt] at he
    split at he
    · next hk =>
      subst hk
      obtain ⟨e', he', rfl⟩ := Option.map_eq_some_iff.mp he
      exact ⟨e', he', rfl, fun h => observeF_le h ho _ _ _⟩
    · exact ⟨e, he, rfl, id⟩
  · next hs =>
    split
    · exact .newStray _ hr hs (seedF_le ho _)
    · unfold StrayTracker.replaceWeakest
      split
      · split
        · exact .newStray _ hr hs (seedF_le ho _)
        · exact .refl s
      · exact .refl s

theorem KeepsTableLaws.deliver {o : Observation} (s : State) (ho : o.level ≤ 200) : KeepsTableLaws s (s.deliver o) := by
  unfold State.deliver
  split
  · next hr =>
    split
    · exact .observeStray hr ho
    · exact .homeOrRefuse hr ho
  · split
    · exact (NoneJoins.sight _ s ho).keeps
    · split
      · exact (NoneJoins.hearRostered _ _ s ho).keeps
      · exact .refl s

/-! ### Report frames (R1 to R16) -/

/-- A path lock that is FREE, or LOCKED on a valid radio with a NONE count at rest (R6). -/
def LawfulLock (lock : Option PathLock) : Prop := ∀ l, lock = some l → validRadio l.radio = true ∧ l.nones ≤ 2

theorem lockLaw_iff (s : State) : LockLaw s ↔ ∀ p : Fin 8, LawfulLock s.intake.locks[p] := Iff.rfl

theorem lawfulLock_none : LawfulLock none := fun _ h => nomatch h

theorem LawfulLock.silentSlot {lock : Option PathLock} (h : LawfulLock lock) : LawfulLock (silentSlot lock) := by
  cases lock with
  | none => exact h
  | some l =>
    unfold Machine.silentSlot
    dsimp only
    split
    · exact lawfulLock_none
    · intro l' hl'
      cases hl'
      exact ⟨(h l rfl).1, by dsimp only; omega⟩

theorem LawfulLock.heardSlot {lock : Option PathLock} (h : LawfulLock lock) : LawfulLock (heardSlot lock) := by
  intro l' hl'
  obtain ⟨l, hl, rfl⟩ := Option.map_eq_some_iff.mp hl'
  exact ⟨(h l hl).1, Nat.zero_le _⟩

theorem namedSlot_lock (r : Radio) (lock : Option PathLock) : (namedSlot r lock).lock = lock := by
  unfold namedSlot; split <;> rfl

theorem lawfulLock_lockedOn (r : Radio) :
    LawfulLock (if validRadio r = true then some { radio := r, nones := 0 } else none) := by
  split
  · next hr => intro l hl; cases hl; exact ⟨hr, Nat.zero_le _⟩
  · exact lawfulLock_none

/-- A slot leaves a lawful lock lawful (R6 to R13). -/
theorem LawfulLock.slotEffect {lock : Option PathLock} (h : LawfulLock lock) (kind : SlotKind) (r : Radio) :
    LawfulLock (slotEffect kind r lock).lock := by
  unfold Machine.slotEffect
  split
  · exact h.silentSlot
  · exact h.silentSlot
  · rw [namedSlot_lock]; exact lawfulLock_lockedOn r
  · rw [namedSlot_lock]; exact lawfulLock_lockedOn r
  · rw [namedSlot_lock]; exact h.heardSlot
  · rw [namedSlot_lock]; exact h.heardSlot
  · split
    · exact h.heardSlot
    · exact lawfulLock_none
  · split <;> exact lawfulLock_none

/-- Where the blocks other than the locks stay, the lock law alone is to be shown. -/
theorem KeepsTableLaws.of_locks {s t : State} (hl : LockLaw s → LockLaw t) (hr : t.roster = s.roster)
    (hs : t.strays = s.strays) (hh : t.hearing = s.hearing) : KeepsTableLaws s t := by
  have hrest : KeepsTableLaws (s.withIntake t.intake) t := .of_blocks rfl (by simp [hr]) (by simp [hs]) (by simp [hh])
  exact ⟨hl, fun h => hrest.levels ⟨h.roster, h.strays, h.hearing⟩,
    fun h => hrest.radios ⟨h.roster, h.strays, h.apart⟩, fun h => hrest.pins ⟨h.size, h.nodup, h.valid⟩⟩

theorem KeepsTableLaws.setLock {s : State} (p : Fin 8) {lock : Option PathLock}
    (h : LawfulLock s.intake.locks[p] → LawfulLock lock) : KeepsTableLaws s (s.setLock p lock) := by
  refine .of_locks (fun hs => ?_) (by simp) (by simp) (by simp)
  rw [lockLaw_iff] at hs ⊢
  intro q
  simp only [State.setLock, State.withIntake_intake, getElem_setSlot]
  split
  · exact h (hs p)
  · exact hs q

theorem KeepsTableLaws.admitThenDeliver {o : Observation} (s : State) (ho : o.level ≤ 200) :
    KeepsTableLaws s (s.admitThenDeliver o) := by
  unfold State.admitThenDeliver
  split
  · exact .deliver s ho
  · exact .of_blocks (by simp) (by simp) (by simp) (by simp)

theorem KeepsTableLaws.takeSlot (frame : List Byte) (s : State) (p : Fin 8) :
    KeepsTableLaws s (s.takeSlot frame p) := by
  let e := slotEffect (slotAt frame p).kind (slotAt frame p).radio s.intake.locks[p]
  have hlock : KeepsTableLaws s (s.setLock p e.lock) := .setLock p fun h => h.slotEffect _ _
  have hcounted : KeepsTableLaws s
      (((s.setLock p e.lock).bumpIf e.orphan .orphanBursts).bumpIf e.invalid .nonAdmitted) :=
    hlock.trans (.of_blocks (by simp) (by simp) (by simp) (by simp))
  unfold State.takeSlot
  dsimp only
  split
  · exact hcounted.trans (.admitThenDeliver _ (levelOfByte_le _))
  · exact hcounted

theorem KeepsTableLaws.takeSlots (frame : List Byte) (s : State) : KeepsTableLaws s (s.takeSlots frame) :=
  State.takeSlots_induct (P := KeepsTableLaws s) frame (fun t p h => h.trans (.takeSlot frame t p)) s (.refl s)

theorem KeepsTableLaws.reportGap (s : State) : KeepsTableLaws s s.reportGap := by
  refine .of_locks (fun _ => ?_) (by simp) (by simp) (by simp)
  rw [lockLaw_iff]
  intro p
  have : s.reportGap.intake.locks[p] = none := by simp [State.reportGap, Intake.freeLocks]
  rw [this]
  exact lawfulLock_none

theorem KeepsTableLaws.takeFrame (frame : List Byte) (s : State) : KeepsTableLaws s (s.takeFrame frame) := by
  have hnumber : ∀ n, KeepsTableLaws s (s.expect n) := fun n => .of_blocks rfl rfl rfl rfl
  unfold State.takeFrame
  dsimp only
  split
  · exact (hnumber _).trans (.takeSlots frame _)
  · exact ((hnumber _).trans (.reportGap _)).trans (.takeSlots frame _)
  · exact .refl s

end Sys2Proof.Machine

/-! ## The laws of the tables under every command -/

namespace Sys2Proof.Machine

/-! ### Frames from neighbours -/

/-- The accepting answer to an ASK is for a radio without an entry, and its stray entry is one of the list (R125). -/
theorem State.askAnswer_accept {source sequence : Byte} {r : Radio} {emergency : Bool} {s : State} {i : Fin 64}
    {stray : StrayEntry} (h : s.askAnswer source r sequence emergency = .accept i stray) :
    s.rosterIndex r = none ∧ ∃ j : Fin 32, s.strays.entries[j] = some stray := by
  unfold State.askAnswer at h
  split at h
  · cases h
  split at h
  · cases h
  split at h
  · cases h
  split at h
  · split at h <;> cases h
  · next hr =>
    split at h
    · cases h
    · next x hx =>
      split at h
      · cases h
      split at h
      · cases h
        obtain ⟨j, -, hj⟩ := Option.bind_eq_some_iff.mp hx
        exact ⟨hr, j, hj⟩
      · cases h

theorem KeepsTableLaws.receiveAsk (f : LinkFrame) (s : State) : KeepsTableLaws s (s.receiveAsk f) := by
  unfold State.receiveAsk
  dsimp only
  split
  · exact .refl s
  · exact .of_blocks (by simp) (by simp) (by simp) (by simp)
  · next i _ =>
    exact ((NoneJoins.updateEntry_same i s.renewed s (fun _ => rfl) fun _ => rfl).then (by simp) (by simp) (by simp)
      (by simp)).keeps
  · next i stray h =>
    obtain ⟨hr, j, hj⟩ := State.askAnswer_accept h
    have hcreated : KeepsTableLaws s
        (s.createEntry i (s.newExpected (radioAt f.body 0) stray.f f.source (byteAt f.body 3))) :=
      .createEntry i hr fun hs => hs.strays j stray hj
    exact hcreated.trans (.of_blocks (by simp) (by simp) (by simp) (by simp))

theorem KeepsTableLaws.negotiate (f : LinkFrame) (s : State) : KeepsTableLaws s (s.negotiate f) := by
  unfold State.negotiate
  split
  · exact .refl s
  · exact .receiveAsk f s
  · exact (NoneJoins.receiveTake f s).keeps
  · exact (NoneJoins.receiveDecline f s).keeps
  · exact (NoneJoins.receiveHomed f s).keeps

theorem KeepsTableLaws.dispatchNeighbour (n : Fin 8) (f : LinkFrame) (s : State) :
    KeepsTableLaws s (s.dispatchNeighbour n f) := by
  have hheard := NoneJoins.hearFrom n s
  have heval : ∀ b : Bool, NoneJoins s (if b then (s.hearFrom n).evalAll else s.hearFrom n) := by
    intro b
    cases b
    · exact hheard
    · exact hheard.trans (.evalAll _)
  unfold State.dispatchNeighbour
  dsimp only
  split
  · exact (hheard.trans (.receiveHeard _ _ _ _)).keeps
  · split
    · exact (heval _).keeps.trans (.negotiate f _)
    · exact (heval _).keeps

theorem KeepsTableLaws.dispatchFrame (f : LinkFrame) (rest : List LinkFrame) (s : State) :
    KeepsTableLaws s (s.dispatchFrame f rest) := by
  have htaken : KeepsTableLaws s (s.withLink { s.link with rx := rest }) := .of_blocks rfl rfl rfl rfl
  refine htaken.trans ?_
  unfold State.dispatchFrame
  dsimp only
  split
  · exact .dispatchNeighbour _ f _
  · unfold State.dispatchStranger
    split
    · exact .refl _
    · split
      · exact .of_blocks rfl rfl rfl rfl
      · exact .negotiate f _

/-! ### HEARD notices -/

theorem NoneJoins.markReported (taken : List (Fin 32)) (s : State) :
    NoneJoins s (s.withStrays (s.strays.markReported taken)) := by
  refine .of_strays s _ ?_
  unfold StrayTracker.markReported
  dsimp only
  generalize s.strays.entries = v
  induction taken generalizing v with
  | nil => exact fun j e h => ⟨e, h, rfl, id⟩
  | cons k taken ih =>
    intro j e h
    obtain ⟨e', he', hr', hf'⟩ := ih _ j e h
    rw [getElem_updateAt] at he'
    split at he'
    · next hjk =>
      subst hjk
      obtain ⟨e'', he'', rfl⟩ := Option.map_eq_some_iff.mp he'
      exact ⟨e'', he'', hr', hf'⟩
    · exact ⟨e', he', hr', hf'⟩

theorem NoneJoins.composeHeard (taken : List (Fin 32)) (s : State) : NoneJoins s (s.composeHeard taken) := by
  have hoffer : NoneJoins s (s.offer 0 .heard (heardBody (s.strays.pairs taken))) :=
    .of_blocks (by simp) (by simp) (by simp) (by simp)
  have hmark := NoneJoins.markReported taken (s.offer 0 .heard (heardBody (s.strays.pairs taken)))
  rw [State.offer_strays] at hmark
  unfold State.composeHeard
  dsimp only
  split
  · exact hoffer.trans hmark
  · exact hoffer

theorem NoneJoins.composeNotice (s : State) : NoneJoins s s.composeNotice := by
  unfold State.composeNotice
  dsimp only
  split
  · exact .refl s
  split
  · exact .composeHeard _ s
  split
  · exact .of_blocks (by simp) (by simp) (by simp) (by simp)
  · exact .refl s

/-! ### The maintenance port -/

/-- The parts of a frame change the port alone; the laws are kept where the command's effect keeps them. -/
theorem KeepsTableLaws.portCommand (c : PortCommand) (part : FramePart) (s : State)
    (heff : ∀ (shown : List Byte) (s : State), KeepsTableLaws s (c.effect shown s)) :
    KeepsTableLaws s (s.portCommand c part) := by
  refine State.portCommand_induct (P := KeepsTableLaws s) c part ?_ ?_ ?_ ?_ s (.refl s)
  · exact fun t f h => h.trans (.of_blocks rfl rfl rfl rfl)
  · exact fun t m h => h.trans (.of_blocks rfl rfl rfl rfl)
  · exact fun t h => h.trans (.of_blocks rfl rfl rfl rfl)
  · exact fun shown t h => h.trans (heff shown t)

theorem KeepsTableLaws.dropCommand (s : State) : KeepsTableLaws s s.dropCommand := .of_blocks rfl rfl rfl rfl

theorem KeepsTableLaws.setHoldMode (m : HoldMode) (s : State) : KeepsTableLaws s (s.setHoldMode m) := by
  have hset : NoneJoins s (s.withPort { s.port with hold := m }) := .of_blocks rfl rfl rfl rfl
  unfold State.setHoldMode
  split
  · exact .refl s
  · exact (hset.trans (.evalAll _)).keeps

theorem KeepsTableLaws.setListenOnly (on : Bool) (s : State) : KeepsTableLaws s (s.setListenOnly on) := by
  unfold State.setListenOnly
  split
  · exact .refl s
  · refine (NoneJoins.trans ?_ (.evalAll _)).keeps
    exact .of_blocks rfl rfl rfl rfl

/-- A pin list that is replaced leaves locks, levels and radios as they were. -/
theorem KeepsTableLaws.withPins {s : State} {pins : List Radio}
    (h : PinLaw s → pins.length ≤ Config.pinListSize ∧ pins.Nodup ∧ ∀ r ∈ pins, validRadio r = true) :
    KeepsTableLaws s (s.withRoster { s.roster with pins := pins }) where
  locks := id
  levels := fun hs => ⟨hs.roster, hs.strays, hs.hearing⟩
  radios := fun hs => ⟨hs.roster, hs.strays, hs.apart⟩
  pins := fun hs => ⟨(h hs).1, (h hs).2.1, (h hs).2.2⟩

/-- A radio joins the pin list only where it is not listed, valid, and room is left (R58, R194). -/
theorem KeepsTableLaws.pinRadio (r : Radio) (s : State) : KeepsTableLaws s (s.pinRadio r) := by
  unfold State.pinRadio
  split
  · exact .refl s
  · next hlisted =>
    split
    · exact .dropCommand s
    · next hfit =>
      simp only [Bool.or_eq_true, Bool.not_eq_true', decide_eq_true_eq, not_or, Bool.not_eq_false, not_le] at hfit
      obtain ⟨hvalid, hroom⟩ := hfit
      have hnot : r ∉ s.roster.pins := by simpa using hlisted
      have hpinned : KeepsTableLaws s (s.withRoster { s.roster with pins := s.roster.pins ++ [r] }) := by
        refine .withPins fun hs => ⟨by simpa using hroom, ?_, ?_⟩
        · simpa [List.nodup_append, hs.nodup] using fun x hx (heq : x = r) => hnot (heq ▸ hx)
        · simpa [or_imp, forall_and] using ⟨hs.valid, hvalid⟩
      exact hpinned.trans (NoneJoins.evalRadios _ _).keeps

theorem KeepsTableLaws.unpinRadio (r : Radio) (s : State) : KeepsTableLaws s (s.unpinRadio r) := by
  unfold State.unpinRadio
  split
  · have hunpinned : KeepsTableLaws s
        (s.withRoster { s.roster with pins := s.roster.pins.filter fun x => x != r }) :=
      .withPins fun hs => ⟨(List.length_filter_le ..).trans hs.size, hs.nodup.filter _,
        fun x hx => hs.valid x (List.mem_of_mem_filter hx)⟩
    exact hunpinned.trans (NoneJoins.evalRadios _ _).keeps
  · exact .refl s

/-! ### Tables emptied -/

theorem lockLaw_of_free {t : State} (h : ∀ p : Fin 8, t.intake.locks[p] = none) : LockLaw t := by
  intro p l hl; rw [h p] at hl; cases hl

theorem levelLaw_of_empty {t : State} (hr : ∀ i : Fin 64, t.roster.entries[i] = none)
    (hs : ∀ j : Fin 32, t.strays.entries[j] = none) (hh : ∀ j : Fin 128, t.hearing.table[j] = none) : LevelLaw t where
  roster := fun i e h => by rw [hr i] at h; cases h
  strays := fun j e h => by rw [hs j] at h; cases h
  hearing := fun j e h => by rw [hh j] at h; cases h

theorem radioLaw_of_empty {t : State} (hr : ∀ i : Fin 64, t.roster.entries[i] = none)
    (hs : ∀ j : Fin 32, t.strays.entries[j] = none) : RadioLaw t where
  roster := fun i _ e _ h => by rw [hr i] at h; cases h
  strays := fun i _ e _ h => by rw [hs i] at h; cases h
  apart := fun i _ e _ h => by rw [hr i] at h; cases h

theorem pinLaw_of_empty {t : State} (h : t.roster.pins = []) : PinLaw t where
  size := by rw [h]; exact Nat.zero_le _
  nodup := by rw [h]; exact .nil
  valid := by rw [h]; exact fun _ hr => nomatch hr

theorem KeepsTableLaws.beginFlush (s : State) : KeepsTableLaws s s.beginFlush := by
  have hr : ∀ i : Fin 64, s.beginFlush.roster.entries[i] = none := fun i => by simp [State.beginFlush]
  have hs : ∀ j : Fin 32, s.beginFlush.strays.entries[j] = none := fun j => by simp [State.beginFlush]
  have hh : ∀ j : Fin 128, s.beginFlush.hearing.table[j] = none := fun j => by simp [State.beginFlush]
  exact ⟨fun _ => lockLaw_of_free fun p => by simp [State.beginFlush, Intake.freeLocks],
    fun _ => levelLaw_of_empty hr hs hh, fun _ => radioLaw_of_empty hr hs, PinLaw.congr rfl⟩

/-! ### The tables after hard reset hold nothing (R6, R59, R74, R90, R135) -/

theorem reset_lock (p : Fin 8) : State.reset.intake.locks[p] = none := by simp [State.reset]
theorem reset_entry (i : Fin 64) : State.reset.roster.entries[i] = none := by simp [State.reset]
theorem reset_stray (j : Fin 32) : State.reset.strays.entries[j] = none := by simp [State.reset]
theorem reset_hearing (j : Fin 128) : State.reset.hearing.table[j] = none := by simp [State.reset]
theorem reset_departure (p : Fin 4) : State.reset.nego.departures[p] = none := by simp [State.reset]
theorem reset_neighbour (n : Fin 8) : State.reset.hearing.neighbours[n] = NeighbourRecord.unused := by
  simp [State.reset]
theorem reset_counter (n : Fin 16) : State.reset.port.counters[n] = 0 := by simp [State.reset]

/-! ### Every command -/

/-- A served command keeps the laws where its meaning does; in reset it changes nothing (R171). -/
theorem KeepsTableLaws.of_serve {f : State → State} {s t : State} (h : serve f s = .next t)
    (hf : KeepsTableLaws s (f s)) : KeepsTableLaws s t := by
  rcases serve_eq_next h with ⟨-, rfl⟩ | ⟨-, rfl⟩
  · exact .refl _
  · exact hf

theorem KeepsTableLaws.of_serveIf {b : Bool} {f : State → State} {s t : State} (h : serveIf b f s = .next t)
    (hf : KeepsTableLaws s (f s)) : KeepsTableLaws s t := by
  obtain ⟨rfl, -⟩ := serveIf_eq_next h
  exact .of_serve h hf

theorem NoneJoins.whenDue {i : Fin 64} {due : RosterEntry → Bool} {f : RosterEntry → State → State} {s : State}
    (hf : ∀ e, NoneJoins s (f e s)) : NoneJoins s (s.whenDue i due f) := by
  unfold State.whenDue
  split
  · split
    · exact hf _
    · exact .refl s
  · exact .refl s

/-- An entry changed in neither radio nor F, then evaluated. -/
theorem NoneJoins.updateEntry_eval (i : Fin 64) (f : RosterEntry → RosterEntry) (s : State)
    (hr : ∀ e, (f e).radio = e.radio) (hf : ∀ e, (f e).f = e.f) : NoneJoins s ((s.updateEntry i f).evalAt i) :=
  (NoneJoins.updateEntry_same i f s hr hf).trans (.evalAt i _)

/-- A change that is made only under a condition. -/
theorem KeepsTableLaws.onlyIf {p : Prop} [Decidable p] {s t : State} (h : KeepsTableLaws s t) :
    KeepsTableLaws s (if p then t else s) := by
  split
  · exact h
  · exact .refl s

theorem KeepsTableLaws.whenDue {i : Fin 64} {due : RosterEntry → Bool} {f : RosterEntry → State → State} {s : State}
    (hf : ∀ e, NoneJoins s (f e s)) : KeepsTableLaws s (s.whenDue i due f) :=
  (NoneJoins.whenDue hf).keeps

/-! The meanings that are more than one change under one condition. -/

theorem KeepsTableLaws.hardReset {s t : State} (h : execHardReset s = .next t) : KeepsTableLaws s t := by
  cases h
  exact ⟨fun _ => lockLaw_of_free reset_lock, fun _ => levelLaw_of_empty reset_entry reset_stray reset_hearing,
    fun _ => radioLaw_of_empty reset_entry reset_stray, fun _ => pinLaw_of_empty rfl⟩

theorem KeepsTableLaws.readComplete {pulses : Nat} {image : List Byte} {s t : State}
    (h : execReadComplete pulses image s = .next t) : KeepsTableLaws s t := by
  refine .of_serveIf h (.onlyIf ?_)
  split <;> exact .of_blocks rfl rfl rfl rfl

theorem KeepsTableLaws.tick {s t : State} (h : execTick s = .next t) : KeepsTableLaws s t :=
  .of_serve h (.of_blocks rfl rfl rfl rfl)

theorem KeepsTableLaws.reportFrameStart {s t : State} (h : execReportFrameStart s = .next t) : KeepsTableLaws s t :=
  .of_serve h (.of_blocks rfl rfl rfl rfl)

theorem KeepsTableLaws.takenStrobe {s t : State} (h : execTakenStrobe s = .next t) : KeepsTableLaws s t :=
  .of_serve h (.of_blocks rfl rfl rfl rfl)

theorem KeepsTableLaws.oldMark {stamp : StampName} {s t : State} (h : execOldMark stamp s = .next t) :
    KeepsTableLaws s t := by
  refine .of_serve h ?_
  cases stamp <;> exact .of_blocks rfl rfl rfl rfl

theorem KeepsTableLaws.reportFrame {frame : List Byte} {s t : State} (h : execReportFrame frame s = .next t) :
    KeepsTableLaws s t := by
  have hended : KeepsTableLaws s (s.withIntake { s.intake with collecting := false }) := .of_blocks rfl rfl rfl rfl
  refine .of_serveIf h (.onlyIf ?_)
  split
  · exact hended.trans (.takeFrame frame _)
  · exact hended

theorem KeepsTableLaws.lostDeadline {i : Fin 64} {s t : State} (h : execLostDeadline i s = .next t) :
    KeepsTableLaws s t :=
  .of_serve h (.whenDue fun _ => (NoneJoins.removeEntry i s).then (by simp) (by simp) (by simp) (by simp))

theorem KeepsTableLaws.reservationDeadline {i : Fin 64} {s t : State} (h : execReservationDeadline i s = .next t) :
    KeepsTableLaws s t :=
  .of_serve h (.whenDue fun _ => (NoneJoins.removeEntry i s).then (by simp) (by simp) (by simp) (by simp))

theorem KeepsTableLaws.answerDeadline {p : Fin 4} {s t : State} (h : execAnswerDeadline p s = .next t) :
    KeepsTableLaws s t := by
  refine .of_serve h ?_
  split
  · refine .onlyIf ?_
    split
    · exact (NoneJoins.resendAsk _ _ s).keeps
    · exact (NoneJoins.askTimesOut _ s).keeps
  · exact .refl s

theorem KeepsTableLaws.leaveDeadline {p : Fin 4} {s t : State} (h : execLeaveDeadline p s = .next t) :
    KeepsTableLaws s t := by
  refine .of_serve h ?_
  split
  · exact .onlyIf (NoneJoins.leaveEnds _ s).keeps
  · exact .refl s

theorem KeepsTableLaws.strayAgeDeadline {j : Fin 32} {s t : State} (h : execStrayAgeDeadline j s = .next t) :
    KeepsTableLaws s t :=
  .of_serve h (.onlyIf (NoneJoins.of_strays s _ fun _ e he => ⟨e, eq_some_of_set_none he, rfl, id⟩).keeps)

theorem KeepsTableLaws.hearingPeriodExpiry {s t : State} (h : execHearingPeriodExpiry s = .next t) :
    KeepsTableLaws s t := by
  have hadvanced : NoneJoins s s.advanceHearing := .of_blocks rfl rfl rfl rfl
  exact .of_serve h (.onlyIf (hadvanced.trans (.composeNotice _)).keeps)

theorem KeepsTableLaws.silenceDeadline {n : Fin 8} {s t : State} (h : execSilenceDeadline n s = .next t) :
    KeepsTableLaws s t := by
  have hsilent : NoneJoins s (s.withHearing (s.hearing.makeSilent n)) :=
    .of_hearing s _ fun _ _ he => .inl (eq_some_of_dropEntries he).1
  exact .of_serve h (.onlyIf (hsilent.trans (.evalAll _)).keeps)

theorem KeepsTableLaws.hearingExpiry {j : Fin 128} {s t : State} (h : execHearingExpiry j s = .next t) :
    KeepsTableLaws s t := by
  have hfreed : NoneJoins s (s.withHearing { s.hearing with table := s.hearing.table.set j none }) :=
    .of_hearing s _ fun _ _ he => .inl (eq_some_of_set_none he)
  refine .of_serve h ?_
  split
  · exact .onlyIf (hfreed.trans (.evalRadios _ _)).keeps
  · exact .refl s

theorem KeepsTableLaws.idleGapDeadline {s t : State} (h : execIdleGapDeadline s = .next t) : KeepsTableLaws s t := by
  refine .of_serve h ?_
  split
  · exact .onlyIf (.of_blocks rfl rfl rfl rfl)
  · exact .refl s

theorem KeepsTableLaws.spacingEnd {s t : State} (h : execSpacingEnd s = .next t) : KeepsTableLaws s t := by
  refine .of_serve h ?_
  split
  · exact .onlyIf (.of_blocks rfl rfl rfl rfl)
  · exact .refl s

theorem KeepsTableLaws.carrierOnset {s t : State} (h : execCarrierOnset s = .next t) : KeepsTableLaws s t := by
  cases h
  split
  · exact .refl s
  split <;> exact .of_blocks rfl rfl rfl rfl

theorem KeepsTableLaws.carrierFall {bytes : List Byte} {s t : State} (h : execCarrierFall bytes s = .next t) :
    KeepsTableLaws s t := by
  cases h
  split
  · exact .refl s
  split
  · exact .of_blocks rfl rfl rfl rfl
  dsimp only
  split
  · exact .of_blocks (by simp) (by simp) (by simp) (by simp)
  · exact .of_blocks rfl rfl rfl rfl

theorem KeepsTableLaws.dispatch {s t : State} (h : execDispatch s = .next t) : KeepsTableLaws s t := by
  refine .of_serve h ?_
  split
  · exact .onlyIf (.dispatchFrame _ _ s)
  · exact .refl s

theorem KeepsTableLaws.fetchComplete {s t : State} (h : execFetchComplete s = .next t) : KeepsTableLaws s t := by
  refine .of_serve h ?_
  split
  · exact .of_blocks rfl rfl rfl rfl
  · exact .refl s

/-! The effects of the maintenance commands that do more than show or set a register. -/

theorem KeepsTableLaws.selectEffect (table index : Byte) (shown : List Byte) (s : State) :
    KeepsTableLaws s ((selectCommand table index).effect shown s) := by
  simp only [selectCommand]
  split
  · exact .of_blocks rfl rfl rfl rfl
  · exact .dropCommand s

theorem KeepsTableLaws.countersEffect (clear : Byte) (shown : List Byte) (s : State) :
    KeepsTableLaws s ((countersCommand clear).effect shown s) := by
  simp only [countersCommand]
  split
  · exact .refl s
  · exact .of_blocks rfl rfl rfl rfl

theorem KeepsTableLaws.holdEffect (mode : Byte) (shown : List Byte) (s : State) :
    KeepsTableLaws s ((holdCommand mode).effect shown s) := by
  simp only [holdCommand]
  split
  · exact .setHoldMode _ s
  · exact .dropCommand s

theorem KeepsTableLaws.listenEffect (setting : Byte) (shown : List Byte) (s : State) :
    KeepsTableLaws s ((listenCommand setting).effect shown s) := by
  simp only [listenCommand]
  split
  · split
    · exact .setListenOnly _ s
    · exact .dropCommand s
  · exact .dropCommand s

theorem KeepsTableLaws.flushEffect (shown : List Byte) (s : State) : KeepsTableLaws s (flushCommand.effect shown s) := by
  simp only [flushCommand]
  split
  · exact .beginFlush s
  · exact .dropCommand s

theorem KeepsTableLaws.reloadEffect (shown : List Byte) (s : State) :
    KeepsTableLaws s (reloadCommand.effect shown s) := by
  simp only [reloadCommand]
  split
  · exact .of_blocks rfl rfl rfl rfl
  · exact .dropCommand s

/-- Every command keeps the laws of locks, levels, radios and pins. -/
theorem exec_keepsTableLaws {c : Instr} {s t : State} (h : exec c s = .next t) : KeepsTableLaws s t := by
  cases c with
  | hardReset => exact .hardReset h
  | resetRelease => cases h; exact .onlyIf (.of_blocks rfl rfl rfl rfl)
  | readComplete pulses image => exact .readComplete h
  | missingAcknowledge pulses point => exact .of_serveIf h (.onlyIf (.of_blocks rfl rfl rfl rfl))
  | stuckDataLine => exact .of_serve h (.onlyIf (.of_blocks rfl rfl rfl rfl))
  | loadDeadline progress clockHeld => exact .of_serveIf h (.onlyIf (.of_blocks rfl rfl rfl rfl))
  | tick => exact .tick h
  | oldMark stamp => exact .oldMark h
  | reportFrameStart => exact .reportFrameStart h
  | reportFrame frame => exact .reportFrame h
  | lostDeadline i => exact .lostDeadline h
  | callActiveDeadline i =>
    exact .of_serve h (.whenDue fun _ => .updateEntry_eval i _ s (fun _ => rfl) fun _ => rfl)
  | emergencyClear i => exact .of_serve h (.whenDue fun _ => .updateEntry_eval i _ s (fun _ => rfl) fun _ => rfl)
  | guardPeriodEnd i => exact .of_serve h (.whenDue fun _ => .updateEntry_eval i _ s (fun _ => rfl) fun _ => rfl)
  | reservationDeadline i => exact .reservationDeadline h
  | dwellExpiry i => exact .of_serve h (.whenDue fun e => .dwellExpires i e s)
  | exclusionDeadline i =>
    exact .of_serve h (.whenDue fun _ => .updateEntry_eval i _ s (fun _ => rfl) fun _ => rfl)
  | answerDeadline p => exact .answerDeadline h
  | leaveDeadline p => exact .leaveDeadline h
  | strayAgeDeadline j => exact .strayAgeDeadline h
  | hearingPeriodExpiry => exact .hearingPeriodExpiry h
  | silenceDeadline n => exact .silenceDeadline h
  | hearingExpiry j => exact .hearingExpiry h
  | idleGapDeadline => exact .idleGapDeadline h
  | backoffEnd => exact .of_serve h (.onlyIf (.of_blocks rfl rfl rfl rfl))
  | spacingEnd => exact .spacingEnd h
  | windowEnd => exact .of_serve h (.onlyIf (.of_blocks rfl rfl rfl rfl))
  | carrierOnset => exact .carrierOnset h
  | carrierFall bytes => exact .carrierFall h
  | dispatch => exact .dispatch h
  | sentReport => exact .of_serve h (.onlyIf (.of_blocks rfl rfl rfl rfl))
  | takenStrobe => exact .takenStrobe h
  | status part => exact .of_serve h (.portCommand _ part s fun _ u => .refl u)
  | peekAttention part => exact .of_serve h (.portCommand _ part s fun _ u => .refl u)
  | takeAttention part => exact .of_serve h (.portCommand _ part s fun _ _ => .of_blocks rfl rfl rfl rfl)
  | selectTable table index part => exact .of_serve h (.portCommand _ part s (.selectEffect table index))
  | readEntry part => exact .of_serve h (.portCommand _ part s fun _ _ => .of_blocks rfl rfl rfl rfl)
  | fetchComplete => exact .fetchComplete h
  | readCounters clear part => exact .of_serve h (.portCommand _ part s (.countersEffect clear))
  | setHold mode part => exact .of_serve h (.portCommand _ part s (.holdEffect mode))
  | pin radio part => exact .of_serve h (.portCommand _ part s fun _ u => .pinRadio radio u)
  | unpin radio part => exact .of_serve h (.portCommand _ part s fun _ u => .unpinRadio radio u)
  | listenOnly setting part => exact .of_serve h (.portCommand _ part s (.listenEffect setting))
  | flush part => exact .of_serve h (.portCommand _ part s .flushEffect)
  | flushComplete => exact .of_serve h (.onlyIf (.of_blocks rfl rfl rfl rfl))
  | reload part => exact .of_serve h (.portCommand _ part s .reloadEffect)
  | unknownCommand code part => exact .of_serveIf h (.portCommand _ part s fun _ u => .refl u)

/-- A step keeps the laws: it idles, or executes a command with the queue's rest. -/
theorem step_keepsTableLaws {s t : State} (h : step s = .next t) : KeepsTableLaws s t := by
  unfold step at h
  split at h
  · cases h; exact .refl _
  · next c rest _ =>
    have hrest : KeepsTableLaws s (s.withPending rest) := .of_blocks rfl rfl rfl rfl
    exact hrest.trans (exec_keepsTableLaws h)

/-- Settles O55: the four laws are kept by every operation, so by every step. -/
theorem everyStepKeepsTheTableLaws : Obligations.EveryStepKeepsTheTableLaws := by
  intro s t h
  obtain ⟨hlocks, hlevels, hradios, hpins⟩ := step_keepsTableLaws h
  exact ⟨hlocks, hlevels, hradios, hpins⟩

end Sys2Proof.Machine

/-! ## Report frames: path locks, frame numbers, slots (chapter 1) -/

namespace Sys2Proof.Machine

/-! ### Slots on path locks (R6 to R13) -/

theorem validRadio_iff (r : Radio) : validRadio r = true ↔ r ≠ 0 ∧ r ≠ 16777215 := by
  simp [validRadio]

theorem namedSlot_valid {r : Radio} (h : validRadio r = true) (lock : Option PathLock) :
    namedSlot r lock = ⟨lock, some r, false, false⟩ := if_pos h

theorem namedSlot_invalid {r : Radio} (h : ¬validRadio r = true) (lock : Option PathLock) :
    namedSlot r lock = ⟨lock, none, false, true⟩ := if_neg h

/-- At rest a NONE count is at most 2, and the third NONE frees the lock (R10). -/
theorem silentSlot_locked {l : PathLock} (h : l.nones ≤ 2) :
    silentSlot (some l) = if l.nones = 2 then none else some { radio := l.radio, nones := l.nones + 1 } := by
  unfold silentSlot
  have : 3 ≤ l.nones + 1 ↔ l.nones = 2 := by omega
  simp only [this]

/-- The kinds that lock a path do so on a valid radio and free it on an invalid one, whatever the lock was (R7). -/
theorem slotEffect_locking {kind : ObsKind} (hk : kind = .header ∨ kind = .emergency) (r : Radio)
    (lock : Option PathLock) :
    slotEffect (.burst kind) r lock = namedSlot r (if validRadio r then some { radio := r, nones := 0 } else none) := by
  rcases hk with rfl | rfl <;> rfl

/-- The kinds that name their radio without locking leave the lock on its own (R12). -/
theorem slotEffect_naming {kind : ObsKind} (hk : kind = .registration ∨ kind = .data) (r : Radio)
    (lock : Option PathLock) : slotEffect (.burst kind) r lock = namedSlot r (heardSlot lock) := by
  rcases hk with rfl | rfl <;> rfl

/-- Settles O13: row by row of the table of R6. -/
theorem slotsActOnPathLocksAsTabled : Obligations.SlotsActOnPathLocksAsTabled := by
  intro r l hl
  dsimp only
  simp only [← validRadio_iff]
  refine ⟨⟨rfl, ?_⟩, ⟨rfl, ?_⟩, ?_, ⟨rfl, rfl⟩, ⟨rfl, rfl⟩, ?_⟩
  · simp only [slotEffect, silentSlot_locked hl]
  · simp only [slotEffect, silentSlot_locked hl]
  · intro kind hk lock
    refine ⟨fun hv => ?_, fun hv => ?_⟩
    · rw [slotEffect_locking hk, namedSlot_valid hv, if_pos hv]
    · rw [slotEffect_locking hk, namedSlot_invalid hv, if_neg hv]
  · intro kind hk
    refine ⟨fun hv => ⟨?_, ?_⟩, fun hv => ⟨?_, ?_⟩⟩
    · rw [slotEffect_naming hk, namedSlot_valid hv]; rfl
    · rw [slotEffect_naming hk, namedSlot_valid hv]; rfl
    · rw [slotEffect_naming hk, namedSlot_invalid hv]; rfl
    · rw [slotEffect_naming hk, namedSlot_invalid hv]; rfl

/-- A named slot counts its radio or forms its observation, never both, and is no orphan. -/
theorem namedSlot_counts (r : Radio) (lock : Option PathLock) :
    (namedSlot r lock).orphan = false ∧ ((namedSlot r lock).observed ≠ none → (namedSlot r lock).invalid = false) := by
  unfold namedSlot
  split
  · exact ⟨rfl, fun _ => rfl⟩
  · exact ⟨rfl, fun h => absurd rfl h⟩

/-- A slot is counted once at most, and not at all where it forms an observation (R6 to R13). -/
theorem slotEffect_counts (kind : SlotKind) (r : Radio) (lock : Option PathLock) :
    ((slotEffect kind r lock).orphan = true → (slotEffect kind r lock).invalid = false)
      ∧ ((slotEffect kind r lock).observed ≠ none →
          (slotEffect kind r lock).orphan = false ∧ (slotEffect kind r lock).invalid = false) := by
  have hnamed : ∀ x, ((namedSlot r x).orphan = true → (namedSlot r x).invalid = false)
      ∧ ((namedSlot r x).observed ≠ none → (namedSlot r x).orphan = false ∧ (namedSlot r x).invalid = false) := by
    intro x
    obtain ⟨horphan, hinvalid⟩ := namedSlot_counts r x
    exact ⟨fun h => absurd h (by simp [horphan]), fun h => ⟨horphan, hinvalid h⟩⟩
  unfold slotEffect
  split
  · exact ⟨fun _ => rfl, fun _ => ⟨rfl, rfl⟩⟩
  · exact ⟨fun _ => rfl, fun h => absurd rfl h⟩
  · exact hnamed _
  · exact hnamed _
  · exact hnamed _
  · exact hnamed _
  · split
    · exact ⟨fun _ => rfl, fun _ => ⟨rfl, rfl⟩⟩
    · exact ⟨fun _ => rfl, fun h => absurd rfl h⟩
  · split
    · exact ⟨fun _ => rfl, fun _ => ⟨rfl, rfl⟩⟩
    · exact ⟨fun _ => rfl, fun h => absurd rfl h⟩

/-! ### One slot whole -/

/-- What the slot at `p` does to its lock as it stands (R6). -/
def State.effectAt (frame : List Byte) (s : State) (p : Fin 8) : SlotEffect :=
  slotEffect (slotAt frame p).kind (slotAt frame p).radio s.intake.locks[p]

/-- The state after a slot with effect `e` at `p`, before its observation is delivered: the lock set, and the slot counted as
an orphan or for its invalid radio (R6, R7, R9, R13). -/
def State.counted (e : SlotEffect) (p : Fin 8) (s : State) : State :=
  { s with
    intake := { s.intake with locks := s.intake.locks.set p e.lock }
    port :=
      { s.port with
        counters :=
          if e.orphan then s.port.counters.set 8 (saturate s.port.counters[8])
          else if e.invalid then s.port.counters.set 7 (saturate s.port.counters[7])
          else s.port.counters } }

/-- The two counts of a slot as one choice, for no slot is counted twice. -/
theorem State.counted_eq {e : SlotEffect} (h : e.orphan = true → e.invalid = false) (p : Fin 8) (s : State) :
    ((s.setLock p e.lock).bumpIf e.orphan .orphanBursts).bumpIf e.invalid .nonAdmitted = s.counted e p := by
  obtain ⟨lock, observed, orphan, invalid⟩ := e
  cases orphan with
  | true => cases h rfl; rfl
  | false => cases invalid <;> rfl

/-- A slot that forms no observation sets its lock and is counted. -/
theorem State.takeSlot_unobserved {frame : List Byte} {s : State} {p : Fin 8} (h : (s.effectAt frame p).observed = none) :
    s.takeSlot frame p = s.counted (s.effectAt frame p) p := by
  rw [← State.counted_eq (e := s.effectAt frame p) (slotEffect_counts _ _ _).1]
  unfold State.takeSlot
  dsimp only
  split
  · next hobs => rw [State.effectAt, hobs] at h; cases h
  · rfl

/-- A slot that forms an observation sets its lock, and the observation is delivered or counted (R14, R15). -/
theorem State.takeSlot_observed {frame : List Byte} {s : State} {p : Fin 8} {r : Radio} {k : ObsKind}
    (h : (s.effectAt frame p).observed = some r) (hk : (slotAt frame p).kind = .burst k) :
    s.takeSlot frame p =
      (s.counted (s.effectAt frame p) p).admitThenDeliver (observationOf p (slotAt frame p) k r) := by
  rw [← State.counted_eq (e := s.effectAt frame p) (slotEffect_counts _ _ _).1]
  unfold State.takeSlot
  dsimp only
  split
  · next hk' hobs =>
    rw [State.effectAt, hobs] at h
    rw [hk'] at hk
    cases h; cases hk; rfl
  · next hno => exact absurd h (hno k r hk)

/-- A slot touches its own lock alone. -/
theorem State.takeSlot_locks (frame : List Byte) (s : State) (p : Fin 8) :
    (s.takeSlot frame p).intake.locks = s.intake.locks.set p (s.effectAt frame p).lock := by
  unfold State.takeSlot
  dsimp only
  split <;> simp [State.setLock, State.effectAt]

/-- NONE on a FREE path does nothing (R10). -/
theorem State.takeSlot_silent_free {frame : List Byte} {s : State} {p : Fin 8} (hk : (slotAt frame p).kind = .silent)
    (hl : s.intake.locks[p] = none) : s.takeSlot frame p = s := by
  have heff : s.effectAt frame p = ⟨none, none, false, false⟩ := by rw [State.effectAt, hk, hl]; rfl
  rw [State.takeSlot_unobserved (by rw [heff]), heff, State.counted]
  have hset : s.intake.locks.set p none = s.intake.locks := by
    refine slots_ext fun q => ?_
    rw [getElem_setSlot]
    split
    · next hqp => rw [hqp, hl]
    · rfl
  rw [hset]
  rfl

/-- The effect of a slot with no count and no observation due: the lock alone. -/
theorem State.counted_uncounted {e : SlotEffect} (ho : e.orphan = false) (hi : e.invalid = false)
    (p : Fin 8) (s : State) :
    s.counted e p = { s with intake := { s.intake with locks := s.intake.locks.set p e.lock } } := by
  rw [State.counted, ho, hi]
  rfl

/-! ### The eight slots in order -/

/-- The state after the first `k` slots of a frame (R5). -/
def State.afterSlots (frame : List Byte) (s : State) (k : Fin 9) : State :=
  ((List.finRange 8).take k).foldl (State.takeSlot frame) s

theorem State.afterSlots_zero (frame : List Byte) (s : State) : s.afterSlots frame 0 = s := rfl

theorem State.afterSlots_eight (frame : List Byte) (s : State) : s.afterSlots frame 8 = s.takeSlots frame := rfl

theorem State.afterSlots_succ (frame : List Byte) (s : State) (p : Fin 8) :
    s.afterSlots frame p.succ = (s.afterSlots frame p.castSucc).takeSlot frame p := by
  have htake : (List.finRange 8).take (p.val + 1) = (List.finRange 8).take p.val ++ [p] := by
    rw [List.take_succ_eq_append_getElem (by simp)]
    simp
  simp only [State.afterSlots, Fin.val_succ, Fin.val_castSucc, htake, List.foldl_append, List.foldl_cons, List.foldl_nil]

/-- The image copy stays through the slots of a frame. -/
theorem State.afterSlots_loader (frame : List Byte) (s : State) (k : Fin 9) : (s.afterSlots frame k).loader = s.loader := by
  unfold State.afterSlots
  generalize (List.finRange 8).take k = l
  induction l generalizing s with
  | nil => rfl
  | cons p l ih => rw [List.foldl_cons, ih, State.takeSlot_loader]

/-- Where every other slot is NONE on a FREE path, a frame is its one slot. -/
theorem State.takeSlots_single {frame : List Byte} {s : State} {p : Fin 8}
    (hk : ∀ k, k ≠ p → (slotAt frame k).kind = .silent) (hl : ∀ k : Fin 8, k ≠ p → s.intake.locks[k] = none) :
    s.takeSlots frame = s.takeSlot frame p := by
  have hfold : ∀ (l : List (Fin 8)) (s : State), l.Nodup → (∀ k : Fin 8, k ≠ p → s.intake.locks[k] = none) →
      l.foldl (State.takeSlot frame) s = if p ∈ l then s.takeSlot frame p else s := by
    intro l
    induction l with
    | nil => exact fun s _ _ => rfl
    | cons k l ih =>
      intro s hnodup hfree
      obtain ⟨hkl, hrest⟩ := List.nodup_cons.mp hnodup
      rw [List.foldl_cons]
      by_cases hkp : k = p
      · subst hkp
        have hfree' : ∀ q : Fin 8, q ≠ k → (s.takeSlot frame k).intake.locks[q] = none := fun q hq => by
          rw [State.takeSlot_locks, getElem_setSlot_ne _ _ hq, hfree q hq]
        rw [ih _ hrest hfree', if_neg hkl, if_pos (List.mem_cons_self ..)]
      · rw [State.takeSlot_silent_free (hk k hkp) (hfree k hkp), ih s hrest hfree]
        simp [Ne.symm hkp]
  rw [State.takeSlots, hfold _ s (List.nodup_finRange 8) hl, if_pos (List.mem_finRange p)]

/-! ### Frame numbers (R2 to R4) -/

theorem frameCheck_inSequence {expectation : Option Byte} {n : Byte}
    (h : expectation = none ∨ expectation = some (n - 1)) : frameCheck expectation n = .inSequence := by
  rcases h with rfl | rfl
  · rfl
  · have : (n - (n - 1)).toNat = 1 := by simp
    simp only [frameCheck, this, if_true]

/-- The difference of R2 as a number. -/
theorem toNat_sub_ahead (n last : Byte) : (n - last).toNat = (n.toNat + 256 - last.toNat) % 256 := by
  have := last.isLt
  rw [BitVec.toNat_sub]
  congr 1
  omega

theorem frameCheck_discarded {n last : Byte} (h : (n - last).toNat = 0 ∨ 128 ≤ (n - last).toNat) :
    frameCheck (some last) n = .discarded := by
  simp only [frameCheck]
  rw [if_neg (by omega), if_neg (by omega)]

theorem frameCheck_afterGap {n last : Byte} (h2 : 2 ≤ (n - last).toNat) (h127 : (n - last).toNat ≤ 127) :
    frameCheck (some last) n = .afterGap := by
  simp only [frameCheck]
  rw [if_neg (by omega), if_pos ⟨h2, h127⟩]

/-- The 65th byte of a frame that a pulse began: the collection ends, and in RUNNING the frame is taken (R1). -/
theorem exec_reportFrame {s : State} {frame : List Byte} (hreset : s.resetHeld = false)
    (hcollecting : s.intake.collecting = true) (hlength : frame.length = 65) :
    exec (.reportFrame frame) s =
      .next
        (if s.running then (s.withIntake { s.intake with collecting := false }).takeFrame frame
        else s.withIntake { s.intake with collecting := false }) := by
  have hwf : (Instr.reportFrame frame).wellFormed = true := by simp [Instr.wellFormed, Config.reportSize, hlength]
  show execReportFrame frame s = _
  rw [execReportFrame, serveIf_true _ _ hwf, serve_high _ hreset, if_pos hcollecting]

theorem running_of_opState {s : State} (h : s.loader.opState = .running) : s.running = true := by
  simp [State.running, h]

/-- A frame in sequence is its eight slots, its number recorded (R2, R5). -/
theorem exec_reportFrame_inSequence {s : State} {frame : List Byte} (hreset : s.resetHeld = false)
    (hcollecting : s.intake.collecting = true) (hrunning : s.loader.opState = .running) (hlength : frame.length = 65)
    (hnumber : s.intake.expectation = none ∨ s.intake.expectation = some (byteAt frame 0 - 1)) :
    exec (.reportFrame frame) s =
      .next (State.takeSlots frame
        { s with intake := { s.intake with collecting := false, expectation := some (byteAt frame 0) } }) := by
  rw [exec_reportFrame hreset hcollecting hlength, if_pos (running_of_opState hrunning), State.takeFrame]
  simp only [State.withIntake_intake, frameCheck_inSequence hnumber]
  rfl

/-- Settles O12: the difference of the frame's number decides, and after a gap the eight slots meet the same state as in
sequence. -/
theorem reportFramesAreCheckedByNumber : Obligations.ReportFramesAreCheckedByNumber := by
  refine ⟨fun s hreset => ?_, fun s frame hreset hcollecting hlength => ⟨fun hnot => ?_, ?_⟩⟩
  · show execReportFrameStart s = _
    exact serve_high _ hreset
  · rw [exec_reportFrame hreset hcollecting hlength, if_neg (by simpa [State.running] using hnot)]
    rfl
  · intro last hrunning hlast
    have hrun := running_of_opState hrunning
    dsimp only
    rw [← toNat_sub_ahead]
    refine ⟨fun hahead => ?_, fun h2 h127 => ?_⟩
    · rw [exec_reportFrame hreset hcollecting hlength, if_pos hrun, State.takeFrame]
      simp only [State.withIntake_intake, hlast, frameCheck_discarded hahead]
      rfl
    · conv_rhs =>
        rw [exec_reportFrame_inSequence (by exact hreset) (by exact hcollecting) (by exact hrunning) hlength (.inr rfl)]
      rw [exec_reportFrame hreset hcollecting hlength, if_pos hrun, State.takeFrame]
      simp only [State.withIntake_intake, hlast, frameCheck_afterGap h2 h127]
      rfl

end Sys2Proof.Machine

/-! ## Bursts delivered or counted (R5 to R16, R35) -/

namespace Sys2Proof.Machine

/-! ### The fields of a slot record (00_scope.md, 7.1) -/

/-- The quality class stands in the low three bits of its byte, the neighbour index in bits 4 to 6 (R5). -/
theorem extractLsb'_low (b : Byte) : b.extractLsb' 0 3 = b.setWidth 3 := by
  apply BitVec.eq_of_toNat_eq
  simp

theorem extractLsb'_high (b : Byte) : b.extractLsb' 4 3 = (b >>> 4).setWidth 3 := by
  apply BitVec.eq_of_toNat_eq
  simp

/-- The eight bytes of the slot at `p`. -/
def slotByte (frame : List Byte) (p : Fin 8) (j : Nat) : Byte := byteAt frame (1 + 8 * p.val + j)

/-- The observation of a slot, field by field from its bytes (R5, R15). -/
theorem observationOf_slotAt (frame : List Byte) (p : Fin 8) (k : ObsKind) (r : Radio) :
    observationOf p (slotAt frame p) k r =
      { radio := r, kind := k, level := min (slotByte frame p 4).toNat 200
        quality := ((slotByte frame p 5).setWidth 3).toFin, position := p
        neighbour := ((slotByte frame p 5 >>> 4).setWidth 3).toFin, origin := slotByte frame p 6
        count := if (slotByte frame p 7).toNat ≤ 15 then some ((slotByte frame p 7).setWidth 4) else none } := by
  rw [← extractLsb'_low, ← extractLsb'_high]
  rfl

theorem slotAt_kind (frame : List Byte) (p : Fin 8) : (slotAt frame p).kind = slotKind (slotByte frame p 0) := rfl

theorem slotAt_radio (frame : List Byte) (p : Fin 8) :
    (slotAt frame p).radio = slotByte frame p 1 ++ slotByte frame p 2 ++ slotByte frame p 3 := rfl

/-! ### A frame with one burst -/

/-- In pieces of `m` elements each, laid end to end, element `m * i + j` is element `j` of piece `i`. -/
theorem getD_flatMap_uniform {α β : Type} {m : Nat} {g : α → List β} (hg : ∀ a, (g a).length = m) (l : List α) {i j : Nat}
    (hi : i < l.length) (hj : j < m) (d : β) : (l.flatMap g).getD (m * i + j) d = (g l[i]).getD j d := by
  induction l generalizing i with
  | nil => exact absurd hi (Nat.not_lt_zero _)
  | cons a l ih =>
    rw [List.flatMap_cons]
    cases i with
    | zero => rw [Nat.mul_zero, Nat.zero_add, List.getD_append _ _ _ _ (by rw [hg]; exact hj)]; rfl
    | succ i =>
      have hge : (g a).length ≤ m * (i + 1) + j := by rw [hg, Nat.mul_succ]; omega
      rw [List.getD_append_right _ _ _ _ hge, hg, show m * (i + 1) + j - m = m * i + j by rw [Nat.mul_succ]; omega,
        ih (by simpa using hi)]
      rfl

/-- The slots of a one-burst frame are all of eight bytes. -/
theorem oneBurst_slot_length {slot : List Byte} (h : slot.length = 8) (p k : Fin 8) :
    (if k = p then slot else List.replicate 8 0x00).length = 8 := by
  split
  · exact h
  · rfl

theorem slotByte_oneBurstFrame {slot : List Byte} (h : slot.length = 8) (n : Byte) (p k : Fin 8) {j : Nat} (hj : j < 8) :
    slotByte (oneBurstFrame n p slot) k j = (if k = p then slot else List.replicate 8 0x00).getD j 0 := by
  have := getD_flatMap_uniform (oneBurst_slot_length h p) (List.finRange 8) (i := k.val) (by simp) hj 0
  rw [slotByte, byteAt, oneBurstFrame, show 1 + 8 * k.val + j = (8 * k.val + j) + 1 by omega, List.getD_cons_succ, this]
  simp

theorem oneBurstFrame_length {slot : List Byte} (h : slot.length = 8) (n : Byte) (p : Fin 8) :
    (oneBurstFrame n p slot).length = 65 := by
  rw [oneBurstFrame, List.length_cons, List.length_flatMap]
  simp only [oneBurst_slot_length h]
  rfl

/-- The three bytes of a radio ID, put together again: bit by bit. -/
theorem radioBytes_append (r : Radio) :
    r.extractLsb' 16 8 ++ r.extractLsb' 8 8 ++ r.extractLsb' 0 8 = r := by
  apply BitVec.eq_of_getLsbD_eq
  intro i hi
  simp only [BitVec.getLsbD_append, BitVec.getLsbD_extractLsb']
  grind

/-- The burst of a one-burst frame, read back. -/
theorem slotAt_oneBurstFrame (n : Byte) (p : Fin 8) (code : Byte) (r : Radio) (level quality origin count : Byte) :
    let slot := [code] ++ radioBytes r ++ [level, quality, origin, count]
    (slotAt (oneBurstFrame n p slot) p).kind = slotKind code ∧ (slotAt (oneBurstFrame n p slot) p).radio = r
      ∧ ∀ k, observationOf p (slotAt (oneBurstFrame n p slot) p) k r =
          { radio := r, kind := k, level := min level.toNat 200, quality := (quality.setWidth 3).toFin, position := p
            neighbour := ((quality >>> 4).setWidth 3).toFin, origin := origin
            count := if count.toNat ≤ 15 then some (count.setWidth 4) else none } := by
  intro slot
  have hbyte : ∀ j, j < 8 → slotByte (oneBurstFrame n p slot) p j = slot.getD j 0 := fun j hj => by
    rw [slotByte_oneBurstFrame rfl n p p hj, if_pos rfl]
  refine ⟨?_, ?_, fun k => ?_⟩
  · rw [slotAt_kind, hbyte 0 (by decide)]; rfl
  · rw [slotAt_radio, hbyte 1 (by decide), hbyte 2 (by decide), hbyte 3 (by decide)]
    exact radioBytes_append r
  · rw [observationOf_slotAt, hbyte 4 (by decide), hbyte 5 (by decide), hbyte 6 (by decide), hbyte 7 (by decide)]
    rfl

/-- The other slots of a one-burst frame are NONE. -/
theorem slotAt_oneBurstFrame_other {slot : List Byte} (h : slot.length = 8) (n : Byte) {p k : Fin 8} (hk : k ≠ p) :
    (slotAt (oneBurstFrame n p slot) k).kind = .silent := by
  rw [slotAt_kind, slotByte_oneBurstFrame h n p k (by decide), if_neg hk]
  rfl

/-- The four kinds that name their radio, on a FREE path: the lock after them (R7, R12). -/
theorem slotEffect_free {code : Byte} {kind : ObsKind} {r : Radio}
    (hkind : (code, kind) ∈ [(1, ObsKind.registration), (2, ObsKind.header), (5, ObsKind.data), (6, ObsKind.emergency)])
    (hr : validRadio r = true) :
    slotKind code = .burst kind ∧ slotEffect (.burst kind) r none =
      ⟨if kind = .header ∨ kind = .emergency then some { radio := r, nones := 0 } else none, some r, false, false⟩ := by
  simp only [List.mem_cons, Prod.mk.injEq, List.not_mem_nil, or_false] at hkind
  rcases hkind with ⟨rfl, rfl⟩ | ⟨rfl, rfl⟩ | ⟨rfl, rfl⟩ | ⟨rfl, rfl⟩
  · exact ⟨rfl, by rw [slotEffect_naming (.inl rfl), namedSlot_valid hr]; simp [heardSlot]⟩
  · exact ⟨rfl, by rw [slotEffect_locking (.inl rfl), namedSlot_valid hr, if_pos hr]; simp⟩
  · exact ⟨rfl, by rw [slotEffect_naming (.inr rfl), namedSlot_valid hr]; simp [heardSlot]⟩
  · exact ⟨rfl, by rw [slotEffect_locking (.inr rfl), namedSlot_valid hr, if_pos hr]; simp⟩

/-! ### Admission (R14) -/

theorem rangeExponent_eq_some (e : Byte) (x : Nat) :
    rangeExponent e = some x ↔ e.toNat ≠ 255 ∧ min e.toNat 23 = x := by
  have h255 : e = 255 ↔ e.toNat = 255 := ⟨fun h => by rw [h]; rfl, fun h => BitVec.eq_of_toNat_eq h⟩
  unfold rangeExponent
  by_cases h : e = 255
  · simp [h]
  · simp [← h255]

theorem rangeExponent_eq_none (e : Byte) : rangeExponent e = none ↔ e.toNat = 255 := by
  have := rangeExponent_eq_some e
  cases h : rangeExponent e with
  | none =>
    by_contra hc
    have hsome := (this _).mpr ⟨fun h => hc (by simp [h]), rfl⟩
    rw [h] at hsome
    cases hsome
  | some x => simpa using ((this x).mp h).1

/-- Two radio IDs agree above bit `e` where their quotients by 2^e agree. -/
theorem shiftRight_beq_iff (r b : Radio) (e : Nat) : (r >>> e == b >>> e) = true ↔ r.toNat / 2 ^ e = b.toNat / 2 ^ e := by
  rw [beq_iff_eq, ← BitVec.toNat_inj, BitVec.toNat_ushiftRight, BitVec.toNat_ushiftRight, Nat.shiftRight_eq_div_pow,
    Nat.shiftRight_eq_div_pow]

/-- A radio lies in a range where the range is used and its top bits are the base's (R14). -/
theorem inRange_iff (image : List Byte) (k : Nat) (r : Radio) :
    inRange image k r = true ↔
      (byteAt image (39 + 4 * k)).toNat ≠ 255
        ∧ r.toNat / 2 ^ min (byteAt image (39 + 4 * k)).toNat 23 =
            (radioAt image (36 + 4 * k)).toNat / 2 ^ min (byteAt image (39 + 4 * k)).toNat 23 := by
  rw [inRange, show 36 + 4 * k + 3 = 39 + 4 * k by omega]
  cases h : rangeExponent (byteAt image (39 + 4 * k)) with
  | none => simp [(rangeExponent_eq_none _).mp h]
  | some e =>
    obtain ⟨hused, rfl⟩ := (rangeExponent_eq_some _ _).mp h
    simp only [shiftRight_beq_iff, ne_eq, hused, not_false_eq_true, true_and]

/-- The admission check: in a used range, or no range used (R14). -/
theorem admitted_iff (image : List Byte) (r : Radio) :
    admitted image r = true ↔
      (∃ k < 4, inRange image k r = true) ∨ ∀ k < 4, (byteAt image (39 + 4 * k)).toNat = 255 := by
  simp only [admitted, Bool.or_eq_true, List.any_eq_true, List.all_eq_true, List.mem_range, Option.isNone_iff_eq_none,
    rangeExponent_eq_none, show ∀ k, 36 + 4 * k + 3 = 39 + 4 * k by omega]

/-! ### Delivery -/

/-- An admitted observation is delivered; another is counted in counter 8 (R14). -/
theorem State.admitThenDeliver_eq (o : Observation) (s : State) :
    s.admitThenDeliver o =
      if admitted s.loader.image o.radio then s.deliver o
      else { s with port := { s.port with counters := s.port.counters.set 7 (saturate s.port.counters[7]) } } := rfl

/-- A TERMINATOR of a radio without an entry does nothing on an own path (R35). -/
theorem State.deliver_terminator {s : State} {o : Observation} (hentry : s.rosterIndex o.radio = none)
    (hown : o.position.val < 6) (hkind : o.kind = .terminator) : s.deliver o = s := by
  have hpath : isMonitor o.position = false := by simpa [isMonitor] using hown
  simp only [State.deliver, hentry, hpath, Bool.false_eq_true, if_false, State.homeOrRefuse, hkind, if_true]

end Sys2Proof.Machine

/-! ## Bursts delivered or counted: the statement -/

namespace Sys2Proof.Machine

/-- A frame in sequence on FREE paths with one burst that names its radio: the path locked by its kind, the observation
delivered or counted (R7, R12, R14). -/
theorem exec_oneBurstFrame {s : State} {n : Byte} {p : Fin 8} {code : Byte} {kind : ObsKind} {r : Radio}
    {level quality origin count : Byte} (hreset : s.resetHeld = false) (hcollecting : s.intake.collecting = true)
    (hrunning : s.loader.opState = .running)
    (hnumber : s.intake.expectation = none ∨ s.intake.expectation = some (n - 1))
    (hfree : s.intake.locks = Vector.replicate 8 none)
    (hkind : (code, kind) ∈ [(1, ObsKind.registration), (2, ObsKind.header), (5, ObsKind.data), (6, ObsKind.emergency)])
    (hr : validRadio r = true) :
    exec (.reportFrame (oneBurstFrame n p ([code] ++ radioBytes r ++ [level, quality, origin, count]))) s =
      .next (State.admitThenDeliver
        { radio := r, kind := kind, level := min level.toNat 200, quality := (quality.setWidth 3).toFin, position := p,
          neighbour := ((quality >>> 4).setWidth 3).toFin, origin := origin,
          count := if count.toNat ≤ 15 then some (count.setWidth 4) else none }
        { s with
          intake :=
            { collecting := false, expectation := some n
              locks := (Vector.replicate 8 none).set p
                (if kind = .header ∨ kind = .emergency then some { radio := r, nones := 0 } else none) } }) := by
  obtain ⟨hslotKind, hslotRadio, hobservation⟩ := slotAt_oneBurstFrame n p code r level quality origin count
  obtain ⟨hburst, heffect⟩ := slotEffect_free hkind hr
  have hslot : ([code] ++ radioBytes r ++ [level, quality, origin, count]).length = 8 := rfl
  generalize [code] ++ radioBytes r ++ [level, quality, origin, count] = slot at *
  have hnumberByte : byteAt (oneBurstFrame n p slot) 0 = n := rfl
  have hlocks : ∀ k : Fin 8, s.intake.locks[k] = none := fun k => by rw [hfree]; simp
  let u : State := { s with intake := { s.intake with collecting := false, expectation := some n } }
  have hframe := exec_reportFrame_inSequence hreset hcollecting hrunning (oneBurstFrame_length hslot n p)
    (by rw [hnumberByte]; exact hnumber)
  rw [hnumberByte] at hframe
  have hat : u.effectAt (oneBurstFrame n p slot) p =
      ⟨if kind = .header ∨ kind = .emergency then some { radio := r, nones := 0 } else none, some r, false, false⟩ := by
    rw [State.effectAt, hslotKind, hslotRadio, show u.intake.locks[p] = none from hlocks p, hburst, heffect]
  rw [hframe, State.takeSlots_single (s := u) (fun k hk => slotAt_oneBurstFrame_other hslot n hk) fun k _ => hlocks k,
    State.takeSlot_observed (by rw [hat]) (hslotKind.trans hburst), hobservation, hat,
    State.counted_uncounted rfl rfl, ← hfree]

/-- One slot of a frame in sequence, from the bytes of its record (R5 to R15): without an observation the lock and the count
alone, with one its delivery, or its count where the radio is not admitted. -/
theorem State.takeSlot_spec (frame : List Byte) (s : State) (p : Fin 8) :
    ((s.effectAt frame p).observed = none → s.takeSlot frame p = s.counted (s.effectAt frame p) p)
      ∧ ∀ (r : Radio) (k : ObsKind), (s.effectAt frame p).observed = some r → (slotAt frame p).kind = .burst k →
        s.takeSlot frame p =
          if admitted s.loader.image r then
            (s.counted (s.effectAt frame p) p).deliver (observationOf p (slotAt frame p) k r)
          else
            { s.counted (s.effectAt frame p) p with
              port := { s.port with counters := s.port.counters.set 7 (saturate s.port.counters[7]) } } := by
  refine ⟨State.takeSlot_unobserved, fun r k hobs hk => ?_⟩
  have hcounts : (s.effectAt frame p).orphan = false ∧ (s.effectAt frame p).invalid = false :=
    (slotEffect_counts _ _ _).2 (show (s.effectAt frame p).observed ≠ none by rw [hobs]; simp)
  rw [State.takeSlot_observed hobs hk, State.admitThenDeliver_eq, State.counted_uncounted hcounts.1 hcounts.2]
  rfl

/-- Settles O14: one burst is the case of a single slot that counts, any frame is its slots in order, and admission is read
range by range. -/
theorem burstIsDeliveredOrCounted : Obligations.BurstIsDeliveredOrCounted := by
  refine ⟨?_, ?_, fun s o => State.deliver_terminator, ?_⟩
  · intro s n p code kind r level quality origin count hreset hcollecting hrunning hnumber hfree hkind h0 hmax
    have hr := (validRadio_iff r).mpr ⟨h0, hmax⟩
    have hset : (Vector.replicate 8 (none : Option PathLock)).set p none = Vector.replicate 8 none := by
      refine slots_ext fun q => ?_
      rw [getElem_setSlot]
      split <;> simp
    dsimp only
    rw [exec_oneBurstFrame hreset hcollecting hrunning hnumber hfree hkind hr, State.admitThenDeliver_eq]
    by_cases hlocked : kind = .header ∨ kind = .emergency
    · simp only [if_pos hlocked]
    · simp only [if_neg hlocked, hset]
  · intro s frame hreset hcollecting hrunning hlength hnumber
    let taken : State :=
      { s with intake := { s.intake with collecting := false, expectation := some (byteAt frame 0) } }
    refine ⟨taken.afterSlots frame, State.afterSlots_zero frame taken, ?_, fun p => ?_⟩
    · rw [State.afterSlots_eight]
      exact exec_reportFrame_inSequence hreset hcollecting hrunning hlength hnumber
    · have hloader : (taken.afterSlots frame p.castSucc).loader = s.loader := State.afterSlots_loader frame taken _
      have hspec := State.takeSlot_spec frame (taken.afterSlots frame p.castSucc) p
      rw [← State.afterSlots_succ, hloader] at hspec
      simp only [observationOf_slotAt] at hspec
      exact hspec
  · intro image r
    have hbase : ∀ k, radioAt image (36 + 4 * k) =
        byteAt image (36 + 4 * k) ++ byteAt image (37 + 4 * k) ++ byteAt image (38 + 4 * k) := fun k => by
      rw [radioAt, show 36 + 4 * k + 1 = 37 + 4 * k by omega, show 36 + 4 * k + 2 = 38 + 4 * k by omega]
    dsimp only
    rw [admitted_iff]
    simp only [inRange_iff, hbase]

end Sys2Proof.Machine

/-! ## Hard reset -/

namespace Sys2Proof.Machine

/-- A table with every position free holds nothing. -/
theorem heldCount_eq_zero {α : Type} {n : Nat} {v : Vector (Option α) n} (h : ∀ i : Fin n, v[i] = none) :
    heldCount v = 0 := by
  rw [heldCount, List.countP_eq_zero]
  intro i _
  rw [h i]
  simp

/-- HARD_RESET: the state after hard reset, but for the level of LNK_CD and what is not the part's (R171). -/
theorem exec_hardReset (s : State) :
    exec .hardReset s = .next
      { State.reset with
        link := { State.reset.link with lnkCd := s.link.lnkCd }, freeIndex := s.freeIndex, pending := s.pending } := rfl

/-- Settles O7: block by block from the state after hard reset. -/
theorem hardResetRestoresResetValues : Obligations.HardResetRestoresResetValues := by
  intro s
  refine ⟨_, exec_hardReset s, ?_, ?_, ?_, ?_, ?_, ?_, ?_, ?_, ?_, ?_⟩
  · exact ⟨rfl, rfl, rfl⟩
  · exact ⟨rfl, rfl, reset_lock⟩
  · exact ⟨reset_entry, heldCount_eq_zero reset_entry, rfl⟩
  · exact ⟨reset_stray, rfl, rfl⟩
  · exact ⟨reset_neighbour, reset_hearing⟩
  · exact ⟨reset_departure, rfl, rfl, rfl⟩
  · exact ⟨rfl, rfl⟩
  · exact ⟨rfl, rfl, rfl, rfl, rfl, rfl, rfl, rfl, rfl, rfl, rfl⟩
  · exact ⟨rfl, rfl⟩
  · exact ⟨rfl, rfl, rfl, rfl, rfl, rfl, rfl, reset_counter, rfl, rfl⟩

/-! ### The laws after hard reset -/

theorem reset_loaded : State.reset.loaded = false := rfl

theorem reset_resetLaw : ResetLaw State.reset := fun _ => reset_loaded

/-- Without entries and departure records nothing can be out of step (R111). -/
theorem reset_departureLaw : DepartureLaw State.reset where
  roster := fun i _ e _ h => by rw [reset_entry i] at h; cases h
  fields := fun i e h => by rw [reset_entry i] at h; cases h
  hasEntry := fun p d h => by rw [reset_departure p] at h; cases h
  hasRecord := fun i e h => by rw [reset_entry i] at h; cases h
  oneRecord := fun p _ d _ h => by rw [reset_departure p] at h; cases h

theorem reset_hearingLaw : HearingLaw State.reset where
  reset := reset_resetLaw
  unloaded := fun _ => reset_hearing
  live := fun j e h => by rw [reset_hearing j] at h; cases h
  rostered := fun j e h => by rw [reset_hearing j] at h; cases h
  onePerPair := fun i _ e _ h => by rw [reset_hearing i] at h; cases h

theorem reset_imageLaw : ImageLaw State.reset where
  reset := reset_resetLaw
  size := fun h => by cases h
  site := fun h => by cases h
  ranges := fun h => by cases h

theorem reset_steerLaw : SteerLaw State.reset where
  size := Nat.zero_le _
  onePerRadio := .nil
  moves := fun _ h => by cases h
  refuses := fun _ h => by cases h
  repeats := fun _ h => by cases h
  admitted := .nil

theorem reset_linkLaw : LinkLaw State.reset where
  reset := reset_resetLaw
  rxSize := Nat.zero_le _
  txSize := Nat.zero_le _
  classes := .nil
  oneHeard := Nat.zero_le _
  keyed := rfl
  silent := fun _ => rfl
  waits := fun h => by rcases h with ⟨_, h⟩ | ⟨_, h⟩ <;> cases h
  muted := ⟨nofun, fun h => by cases h.1⟩
  notRunning := fun _ => .inl rfl
  quiet := ⟨nofun, fun h => by cases h.1⟩

theorem reset_backoffLaw : BackoffLaw State.reset where
  reset := reset_resetLaw
  window := fun _ h => by cases h
  seeded := fun h => by cases h
  count := fun _ h => by cases h
  held := fun _ h => by cases h

theorem reset_portLaw : PortLaw State.reset where
  reset := reset_resetLaw
  busy := ⟨nofun, fun h => by rcases h with h | h <;> cases h⟩
  notBoth := fun h => by cases h.1
  frame := fun _ h => by cases h
  holder := rfl

/-- Settles O60: every law, one by one, over empty tables and queues. -/
theorem resetMeetsEveryLaw : Obligations.ResetMeetsEveryLaw :=
  ⟨lockLaw_of_free reset_lock, levelLaw_of_empty reset_entry reset_stray reset_hearing,
    radioLaw_of_empty reset_entry reset_stray, pinLaw_of_empty rfl, reset_departureLaw, reset_hearingLaw, reset_imageLaw,
    ⟨rfl, rfl⟩, reset_steerLaw, reset_linkLaw, reset_backoffLaw, ⟨reset_imageLaw, fun _ h => by cases h⟩, reset_portLaw⟩

end Sys2Proof.Machine

/-! ## Levels: the filter and the effective hysteresis (R19 to R22, R28, R29) -/

namespace Sys2Proof.Machine

/-- Truncation toward zero and the nudge treat both signs alike (R22). -/
theorem filterDelta_neg (shift : Nat) (delta : Int) : filterDelta shift (-delta) = -filterDelta shift delta := by
  simp only [filterDelta, Int.neg_tdiv, Int.sign_neg, neg_eq_zero]
  split <;> rfl

/-- The step of a positive difference: its quotient by 2^s, but at least one (R22). -/
theorem filterDelta_of_pos (shift : Nat) {d : Nat} (hd : 0 < d) : filterDelta shift d = max 1 (d / 2 ^ shift : Nat) := by
  have hquot : (d : Int).tdiv (2 ^ shift) = (d / 2 ^ shift : Nat) := by
    rw [Int.tdiv_eq_ediv_of_nonneg (by omega)]
    push_cast
    rfl
  simp only [filterDelta, hquot, Int.sign_eq_one_of_pos (Int.natCast_pos.mpr hd)]
  generalize d / 2 ^ shift = quotient
  split <;> omega

/-- The step of a positive difference stays within it. -/
theorem max_one_div_le (shift : Nat) {d : Nat} (hd : 0 < d) : max 1 (d / 2 ^ shift) ≤ d :=
  max_le hd (Nat.div_le_self ..)

/-- At its target F stands still (R22). -/
theorem filterStep_at (shift : Nat) {f le : Nat} (h : f = le * 16) : filterStep shift f le = f := by
  simp only [filterStep, filterDelta, h, sub_self, Int.zero_tdiv, Int.sign_zero, if_true, add_zero, Int.toNat_natCast]

/-- Below its target F rises by the quotient of the difference, at least by one, and not past the target (R22). -/
theorem filterStep_below (shift : Nat) {f le : Nat} (h : f < le * 16) :
    filterStep shift f le = f + max 1 ((le * 16 - f) / 2 ^ shift) ∧ filterStep shift f le ≤ le * 16 := by
  have hpos : 0 < le * 16 - f := by omega
  have hwithin := max_one_div_le shift hpos
  have hstep : filterStep shift f le = f + max 1 ((le * 16 - f) / 2 ^ shift) := by
    rw [filterStep, show ((le * 16 : Nat) : Int) - f = (le * 16 - f : Nat) by omega, filterDelta_of_pos shift hpos]
    omega
  exact ⟨hstep, by omega⟩

/-- Above its target F falls by the quotient of the difference, at least by one, and not past the target (R22). -/
theorem filterStep_above (shift : Nat) {f le : Nat} (h : le * 16 < f) :
    filterStep shift f le + max 1 ((f - le * 16) / 2 ^ shift) = f ∧ le * 16 ≤ filterStep shift f le := by
  have hpos : 0 < f - le * 16 := by omega
  have hwithin := max_one_div_le shift hpos
  have hstep : filterStep shift f le + max 1 ((f - le * 16) / 2 ^ shift) = f := by
    rw [filterStep, show ((le * 16 : Nat) : Int) - f = -(f - le * 16 : Nat) by omega, filterDelta_neg,
      filterDelta_of_pos shift hpos]
    omega
  exact ⟨hstep, by omega⟩

/-- The hysteresis in effect is at most the doubled one (R29). -/
theorem effectiveHysteresis_le (h : Nat) (doubled inRescue : Bool) : effectiveHysteresis h doubled inRescue ≤ 2 * h := by
  cases doubled <;> cases inRescue <;> simp only [effectiveHysteresis, Bool.false_eq_true, if_true, if_false] <;> omega

/-- Settles O20: the filter step by where F stands to its target, the hysteresis by the two flags. -/
theorem filterAndHysteresisFollowTheirRules : Obligations.FilterAndHysteresisFollowTheirRules := by
  refine ⟨fun v q => ⟨?_, rfl, ?_⟩, fun _ _ _ _ _ => rfl, fun shift f le => ?_, fun h hmax => ?_⟩
  · revert q; decide
  · rw [seedF, effectiveLevel, Nat.mul_comm]
  · exact ⟨filterStep_at shift, filterStep_below shift, filterStep_above shift⟩
  · refine ⟨rfl, rfl, rfl, ?_, fun doubled inRescue => ?_⟩
    · show 2 * h / 2 = h
      omega
    · have := effectiveHysteresis_le h doubled inRescue
      omega

end Sys2Proof.Machine

/-! ## Evaluation: the best neighbour and the candidate condition (R26 to R30, R91 to R97) -/

namespace Sys2Proof.Machine

/-! ### Eligible neighbours -/

/-- A level that a neighbour reports stands in an entry of the pair (R87). -/
theorem Hearing.entry_of_levelFor {h : Hearing} {n : Fin 8} {r : Radio} {v : Nat} (hv : h.levelFor n r = some v) :
    ∃ (j : Fin 128) (x : HearingEntry), h.table[j] = some x ∧ x.neighbour = n ∧ x.radio = r ∧ v = x.level := by
  obtain ⟨j, hj, hlevel⟩ := Option.bind_eq_some_iff.mp hv
  obtain ⟨⟨x, hx, hn, hr⟩, -⟩ := Hearing.pairIndex_spec hj
  rw [hx] at hlevel
  exact ⟨j, x, hx, hn, hr, (Option.some.inj hlevel).symm⟩

/-- Where each pair has at most one entry, the level in it is the level that the neighbour reports (R80, R87). -/
theorem Hearing.levelFor_of_entry {h : Hearing}
    (hone : ∀ (i j : Fin 128) x y, h.table[i] = some x → h.table[j] = some y → x.neighbour = y.neighbour →
      x.radio = y.radio → i = j)
    {j : Fin 128} {x : HearingEntry} (hx : h.table[j] = some x) : h.levelFor x.neighbour x.radio = some x.level := by
  have hindex : h.pairIndex x.neighbour x.radio = some j :=
    findEntry_unique hx (by simp) fun i y hy hp => by
      obtain ⟨hn, hr⟩ : y.neighbour = x.neighbour ∧ y.radio = x.radio := by simpa using hp
      exact hone i j y x hy hx hn hr
  rw [Hearing.levelFor, hindex, Option.bind_some, hx]
  rfl

theorem State.eligible_iff (s : State) (e : RosterEntry) (n : Fin 8) :
    s.eligible e n = true ↔
      s.hearing.neighbours[n].state = .live ∧ s.hearing.neighbours[n].accept = true
        ∧ (∀ x, e.exclusion = some x → x.neighbour ≠ n) ∧ (s.hearing.levelFor n e.radio).isSome = true := by
  simp only [State.eligible, Bool.and_eq_true, beq_iff_eq, Option.all_eq_true, bne_iff_ne, ne_eq, and_assoc]

/-- A neighbour has an adjusted level for an entry where it is eligible: the reported level plus its bias trim (R26, R93). -/
theorem State.adjustedLevel_eq_some {s : State} {e : RosterEntry} {n : Fin 8} {a : Int} :
    s.adjustedLevel e n = some a ↔
      s.eligible e n = true ∧ ∃ v, s.hearing.levelFor n e.radio = some v ∧ a = v + s.hearing.neighbours[n].bias := by
  rw [State.adjustedLevel]
  split
  · next h => simp only [h, true_and, Option.map_eq_some_iff, eq_comm (b := a)]
  · next h => simp [h]

/-- The same, from the entries of the hearing table (R93). -/
theorem State.adjustedLevel_iff_entry {s : State}
    (hone : ∀ (i j : Fin 128) x y, s.hearing.table[i] = some x → s.hearing.table[j] = some y →
      x.neighbour = y.neighbour → x.radio = y.radio → i = j)
    (e : RosterEntry) (n : Fin 8) (a : Int) :
    s.adjustedLevel e n = some a ↔
      s.hearing.neighbours[n].state = .live ∧ s.hearing.neighbours[n].accept = true
        ∧ (∀ x, e.exclusion = some x → x.neighbour ≠ n)
        ∧ ∃ (j : Fin 128) (x : HearingEntry), s.hearing.table[j] = some x ∧ x.neighbour = n ∧ x.radio = e.radio
          ∧ a = x.level + s.hearing.neighbours[n].bias := by
  rw [State.adjustedLevel_eq_some, State.eligible_iff]
  constructor
  · rintro ⟨⟨hlive, haccept, hexcl, -⟩, v, hv, rfl⟩
    obtain ⟨j, x, hx, hn, hr, rfl⟩ := Hearing.entry_of_levelFor hv
    exact ⟨hlive, haccept, hexcl, j, x, hx, hn, hr, rfl⟩
  · rintro ⟨hlive, haccept, hexcl, j, x, hx, rfl, hr, rfl⟩
    have hv := Hearing.levelFor_of_entry hone hx
    rw [hr] at hv
    exact ⟨⟨hlive, haccept, hexcl, by rw [hv]; rfl⟩, x.level, hv, rfl⟩

/-- A choice of the greatest score, whole. -/
theorem pickGreatest_eq_some_iff {m : Nat} {score : Fin m → Option Int} {k : Fin m} {a : Int} :
    pickGreatest score = some (k, a) ↔
      score k = some a ∧ ∀ i b, score i = some b → b ≤ a ∧ (b = a → k ≤ i) :=
  ⟨pickGreatest_some, fun ⟨hk, hmax⟩ => pickGreatest_eq_some hk hmax⟩

/-- Settles O21: the best neighbour is the greatest of the adjusted levels, and these are the levels that eligible neighbours
report. -/
theorem bestNeighbourHearsGreatest : Obligations.BestNeighbourHearsGreatest := by
  intro s e hone hears
  have hscore : ∀ n a, s.adjustedLevel e n = some a ↔ hears n a := s.adjustedLevel_iff_entry hone e
  refine ⟨fun n a => ?_, ?_⟩
  · rw [State.bestNeighbour, pickGreatest_eq_some_iff]
    simp only [hscore]
  · rw [State.bestNeighbour, pickGreatest_none]
    simp only [Option.eq_none_iff_forall_ne_some, ne_eq, hscore]

/-! ### The candidate condition -/

theorem State.meetsMargin_iff (s : State) (e : RosterEntry) :
    s.meetsMargin e = true ↔
      ∃ n a, s.bestNeighbour e = some (n, a) ∧ (s.hysteresisToward e n : Int) ≤ a - ownLevel e.f := by
  unfold State.meetsMargin
  split
  · next n a h => simp [h]
  · next h => simp [h]

/-- Rescue: the own level lies below the rescue floor (R31). -/
theorem State.inRescue_eq (s : State) (e : RosterEntry) :
    s.inRescue e = decide ((e.f + 8) / 16 < s.par .rescueFloor) := rfl

/-- The five terms of the candidate condition (R92). -/
theorem State.candidate_iff (s : State) (e : RosterEntry) :
    s.candidate e = true ↔
      s.port.hold = .opened ∧ e.radio ∉ s.roster.pins ∧ s.port.listenOnly = false
        ∧ ((e.callActive = none ∧ e.emergency = none) ∨ s.inRescue e = true) ∧ s.meetsMargin e = true := by
  simp only [State.candidate, Bool.and_eq_true, Bool.or_eq_true, beq_iff_eq, Bool.not_eq_true', ← Bool.not_eq_true,
    List.contains_iff_mem, Option.isNone_iff_eq_none, and_assoc]

/-- The hysteresis is doubled toward the origin of an entry whose guard period runs (R28). -/
theorem State.doubled_eq (s : State) (e : RosterEntry) (n : Fin 8) :
    s.doubled e n =
      match e.arrival with
      | some x => x.guardRuns && x.origin != 0 && x.origin == s.hearing.neighbours[n].site
      | none => false := by
  unfold State.doubled
  cases e.arrival <;> rfl

/-- The effective dwell of an entry, in rescue and outside it (R30). -/
theorem State.dwellFor_eq (s : State) (e : RosterEntry) :
    s.dwellFor e =
      if (e.f + 8) / 16 < s.par .rescueFloor then max 1 (s.par .dwell * 10 / 2) else s.par .dwell * 10 := by
  simp only [State.dwellFor, effectiveDwell, State.inRescue_eq, decide_eq_true_eq]

/-- Settles O22: the condition term by term, the evaluation by its table, the dwell by rescue. -/
theorem evaluationFollowsItsTable : Obligations.EvaluationFollowsItsTable := by
  intro s e hhomed
  refine ⟨?_, s.evaluated_homed hhomed, s.dwellFor_eq e, fun _ => rfl⟩
  rw [State.candidate_iff, State.meetsMargin_iff]
  simp only [State.hysteresisToward, State.doubled_eq, State.inRescue_eq, ownLevel, decide_eq_true_eq] <;> rfl

end Sys2Proof.Machine

/-! ## The arbiter and the departure that it opens (R52, R106, R112 to R114) -/

namespace Sys2Proof.Machine

/-! ### The choice (R106) -/

/-- An entry's advantage is that of its best neighbour (R27). -/
theorem State.advantage_eq_some {s : State} {e : RosterEntry} {x : Int} :
    s.advantage e = some x ↔ ∃ n a, s.bestNeighbour e = some (n, a) ∧ x = a - ownLevel e.f := by
  simp only [State.advantage, Option.map_eq_some_iff, Prod.exists, eq_comm (b := x)]

/-- The score of a roster index in the arbiter's choice: the advantage of an ask-ready HOMED entry. -/
def State.arbiterScore (s : State) (i : Fin 64) : Option Int :=
  s.roster.entries[i].bind fun e => if e.state = .homed ∧ e.askReady then s.advantage e else none

theorem State.arbiterChoice_eq (s : State) : s.arbiterChoice = (pickGreatest s.arbiterScore).map Prod.fst := rfl

theorem State.arbiterScore_eq_some {s : State} {i : Fin 64} {x : Int} :
    s.arbiterScore i = some x ↔
      ∃ e n, s.roster.entries[i] = some e ∧ e.state = .homed ∧ e.askReady = true
        ∧ ∃ a, s.bestNeighbour e = some (n, a) ∧ x = a - ownLevel e.f := by
  rw [State.arbiterScore, Option.bind_eq_some_iff]
  constructor
  · rintro ⟨e, he, hx⟩
    split at hx
    · next hready =>
      obtain ⟨n, a, ha, rfl⟩ := State.advantage_eq_some.mp hx
      exact ⟨e, n, he, hready.1, hready.2, a, ha, rfl⟩
    · cases hx
  · rintro ⟨e, n, he, hhomed, hready, a, ha, rfl⟩
    exact ⟨e, he, by rw [if_pos ⟨hhomed, hready⟩, State.advantage_eq_some]; exact ⟨n, a, ha, rfl⟩⟩

/-- The arbiter opens the departure of the entry it chooses toward that entry's best neighbour. -/
theorem State.arbiter_of_choice {s : State} {i : Fin 64} {e : RosterEntry} {n : Fin 8} {a : Int}
    (hchoice : s.arbiterChoice = some i) (he : s.roster.entries[i] = some e) (hbest : s.bestNeighbour e = some (n, a)) :
    s.arbiter = s.openDeparture i n := by
  simp only [State.arbiter, hchoice, he, Option.bind_some, hbest]

theorem State.arbiter_of_no_choice {s : State} (hchoice : s.arbiterChoice = none) : s.arbiter = s := by
  simp only [State.arbiter, hchoice]

/-! ### An opened departure (R112 to R114) -/

/-- A departure opened with a free position in the list: record, entry, offer and count. The offer reads nothing that the
record and the entry change. -/
theorem State.openDeparture_eq {s : State} {i : Fin 64} {e : RosterEntry} {n : Fin 8} {p : Fin 4} {d : Departure}
    (he : s.roster.entries[i] = some e) (hp : lowestFree s.nego.departures = some p) (hd : s.newDeparture i e n = d) :
    s.openDeparture i n =
      (((s.offerAsk d).withNego
        { s.nego with departures := s.nego.departures.set p (some d), sequence := s.nego.sequence + 1 }).updateEntry i
          RosterEntry.toAsking).bump .asksSent := by
  simp only [State.openDeparture, he, hp, hd]
  rfl

/-- The record of an opened departure, field by field. -/
theorem State.newDeparture_eq {s : State} (i : Fin 64) {e : RosterEntry} {n : Fin 8} {reported : Nat}
    (hlevel : s.hearing.levelFor n e.radio = some reported) :
    s.newDeparture i e n =
      { radio := e.radio, rosterIndex := i, target := n, sequence := s.nego.sequence + 1, phase := .asking, attempt := 1
        deadline := s.now + BitVec.ofNat 32 (s.par .askTimeout * 10), ownLevel := (e.f + 8) / 16
        neighbourLevel := reported, emergency := e.emergency.isSome
        rescue := decide ((e.f + 8) / 16 < s.par .rescueFloor) } := by
  rw [State.newDeparture, hlevel]
  rfl

/-- Settles O28: the choice is that of the greatest score, and an opened departure is its record, its entry and its ASK. -/
theorem arbiterTakesGreatestAdvantage : Obligations.ArbiterTakesGreatestAdvantage := by
  refine ⟨?_, ?_⟩
  · intro s waits
    refine ⟨?_, fun hnone => ?_⟩
    · intro i e n x hwaits hmax
      have hscore : s.arbiterScore i = some x := State.arbiterScore_eq_some.mpr ⟨e, n, hwaits⟩
      have hpick : pickGreatest s.arbiterScore = some (i, x) :=
        pickGreatest_eq_some hscore fun j y hy => by
          obtain ⟨f, m, hwaits'⟩ := State.arbiterScore_eq_some.mp hy
          exact hmax j f m y hwaits'
      obtain ⟨he, -, -, a, hbest, -⟩ := hwaits
      exact State.arbiter_of_choice (by rw [State.arbiterChoice_eq, hpick]; rfl) he hbest
    · refine State.arbiter_of_no_choice ?_
      rw [State.arbiterChoice_eq, Option.map_eq_none_iff, pickGreatest_none]
      refine fun i => Option.eq_none_iff_forall_ne_some.mpr fun x hx => ?_
      obtain ⟨e, n, hwaits⟩ := State.arbiterScore_eq_some.mp hx
      exact hnone i e n x hwaits
  · intro s i e n p reported he hp hlevel t d asked
    have hd : s.newDeparture i e n = d := State.newDeparture_eq i hlevel
    have hasked : s.offerAsk d = asked := rfl
    have ht : t =
        ((asked.withNego
          { s.nego with departures := s.nego.departures.set p (some d), sequence := s.nego.sequence + 1 }).updateEntry i
            RosterEntry.toAsking).bump .asksSent := by
      rw [← hasked]
      exact State.openDeparture_eq he hp hd
    have hroster : t.roster = { s.roster with entries := updateAt s.roster.entries i RosterEntry.toAsking } := by
      rw [ht]; rfl
    refine ⟨?_, fun j hj => ?_, ?_, ?_, ?_⟩
    · rw [hroster, getElem_updateAt_self, he]; rfl
    · rw [hroster, getElem_updateAt_ne _ _ hj]
    · rw [hroster]
    · rw [ht]; rfl
    · rw [hroster, ht]; rfl

end Sys2Proof.Machine

/-! ## HEARD frames: pairs stored in body order, entries evaluated once (R77 to R87, R99, R100) -/

namespace Sys2Proof.Machine

/-! ### The pairs of a body (00_scope.md, 7.2) -/

/-- Byte `j` of pair `k` of a body of pairs. -/
theorem byteAt_heardBody (count : Byte) (pairs : List (Radio × Byte)) {k j : Nat} (hk : k < pairs.length) (hj : j < 4) :
    byteAt (count :: pairs.flatMap fun x => radioBytes x.1 ++ [x.2]) (1 + 4 * k + j) =
      (radioBytes pairs[k].1 ++ [pairs[k].2]).getD j 0 := by
  rw [byteAt, show 1 + 4 * k + j = (4 * k + j) + 1 by omega, List.getD_cons_succ,
    getD_flatMap_uniform (m := 4) (fun _ => rfl) pairs hk hj]

/-- The pairs read from a body are the pairs that it was made of, the levels limited to 200 (R18, R81). -/
theorem heardPairs_body {body : List Byte} {pairs : List (Radio × Byte)} (hcount : pairs.length ≤ 6)
    (hbody : body = BitVec.ofNat 8 pairs.length :: pairs.flatMap fun x => radioBytes x.1 ++ [x.2]) :
    heardPairs body = pairs.map fun x => (x.1, min x.2.toNat 200) := by
  have hhead : (byteAt body 0).toNat = pairs.length := by
    rw [hbody]
    show (BitVec.ofNat 8 pairs.length).toNat = pairs.length
    rw [BitVec.toNat_ofNat]
    omega
  refine List.ext_getElem (by simp [heardPairs, hhead]) fun k hk hk' => ?_
  have hlt : k < pairs.length := by simpa using hk'
  have hbyte := fun {j : Nat} (hj : j < 4) => byteAt_heardBody (BitVec.ofNat 8 pairs.length) pairs hlt hj
  simp only [heardPairs, List.getElem_map, List.getElem_range, Prod.mk.injEq]
  rw [← hbody] at hbyte
  constructor
  · show byteAt body (1 + 4 * k + 0) ++ byteAt body (1 + 4 * k + 1) ++ byteAt body (1 + 4 * k + 2) = pairs[k].1
    rw [hbyte (by decide), hbyte (by decide), hbyte (by decide)]
    exact radioBytes_append _
  · rw [show 4 + 4 * k = 1 + 4 * k + 3 by omega, hbyte (by decide)]
    rfl

/-! ### One pair stored (R82, R83) -/

/-- Storing a pair fills its place; the radios concerned are the pair's and that of the entry that stood there. -/
theorem Hearing.storePair_spec (now : Time) (age : Nat) (n : Fin 8) (pair : Radio × Nat) (h : Hearing) :
    ∃ j, PairPlace now n pair.1 h.table j
      ∧ h.storePair now age n pair =
        ({ h with
            table := h.table.set j
              (some { neighbour := n, radio := pair.1, level := pair.2, received := now, expiry := after now age }) },
          pair.1 :: (h.table[j].map HearingEntry.radio).toList) := by
  obtain ⟨j, hj, hplace⟩ := Hearing.place_spec now n pair.1 h
  exact ⟨j, hplace, by simp only [Hearing.storePair, hj]⟩

/-! ### The pairs of a frame, one by one (R81) -/

section
variable (now : Time) (age : Nat) (n : Fin 8) (kept : Radio → Bool) (pairs : List (Radio × Nat)) (h : Hearing)

/-- The hearing table block after the first `k` pairs, and the radios whose entries these changed. -/
def Hearing.afterPairs (k : Nat) : Hearing × List Radio := h.storePairs now age n kept (pairs.take k)

theorem Hearing.afterPairs_zero : h.afterPairs now age n kept pairs 0 = (h, []) := rfl

theorem Hearing.afterPairs_length :
    h.afterPairs now age n kept pairs pairs.length = h.storePairs now age n kept pairs := by
  rw [Hearing.afterPairs, List.take_length]

variable {now age n kept pairs h} {k : Nat} {pair : Radio × Nat}

/-- A pair of a radio that is kept is stored in what the pairs before it left (R81, R87). -/
theorem Hearing.afterPairs_succ_kept (hpair : pairs[k]? = some pair) (hkept : kept pair.1 = true) :
    h.afterPairs now age n kept pairs (k + 1) =
      (((h.afterPairs now age n kept pairs k).1.storePair now age n pair).1,
        (h.afterPairs now age n kept pairs k).2 ++ ((h.afterPairs now age n kept pairs k).1.storePair now age n pair).2) := by
  simp only [Hearing.afterPairs, Hearing.storePairs, List.take_add_one, hpair, Option.toList_some, List.foldl_append,
    List.foldl_cons, List.foldl_nil, hkept, if_true]

/-- A pair of any other radio is discarded (R81). -/
theorem Hearing.afterPairs_succ_discarded (hpair : pairs[k]? = some pair) (hkept : kept pair.1 = false) :
    h.afterPairs now age n kept pairs (k + 1) = h.afterPairs now age n kept pairs k := by
  simp only [Hearing.afterPairs, Hearing.storePairs, List.take_add_one, hpair, Option.toList_some, List.foldl_append,
    List.foldl_cons, List.foldl_nil, hkept, Bool.false_eq_true, if_false]

/-- The radios changed by the first pairs are those that some one of them changed. -/
theorem Hearing.mem_afterPairs {r : Radio} (hk : k ≤ pairs.length) :
    r ∈ (h.afterPairs now age n kept pairs k).2 ↔
      ∃ i pair, i < k ∧ pairs[i]? = some pair ∧ kept pair.1 = true
        ∧ r ∈ ((h.afterPairs now age n kept pairs i).1.storePair now age n pair).2 := by
  induction k with
  | zero => simp [Hearing.afterPairs_zero]
  | succ k ih =>
    have hlast : pairs[k]? = some pairs[k] := List.getElem?_eq_getElem hk
    have hsplit : ∀ i, i < k + 1 ↔ i < k ∨ i = k := fun i => Nat.lt_succ_iff_lt_or_eq
    simp only [hsplit, or_and_right, exists_or, ← ih (Nat.le_of_succ_le hk)]
    cases hkept : kept pairs[k].1 with
    | true => simp [Hearing.afterPairs_succ_kept hlast hkept, hlast, hkept]
    | false => simp [Hearing.afterPairs_succ_discarded hlast hkept, hlast, hkept]

/-- The pairs of a frame leave the neighbour records as they are. -/
theorem Hearing.afterPairs_neighbours (hk : k ≤ pairs.length) :
    (h.afterPairs now age n kept pairs k).1.neighbours = h.neighbours := by
  induction k with
  | zero => rfl
  | succ k ih =>
    have hlast : pairs[k]? = some pairs[k] := List.getElem?_eq_getElem hk
    have hbefore := ih (Nat.le_of_succ_le hk)
    cases hkept : kept pairs[k].1 with
    | true =>
      obtain ⟨_, -, hstore⟩ := (h.afterPairs now age n kept pairs k).1.storePair_spec now age n pairs[k]
      rw [Hearing.afterPairs_succ_kept hlast hkept, hstore]
      exact hbefore
    | false =>
      rw [Hearing.afterPairs_succ_discarded hlast hkept]
      exact hbefore

theorem Hearing.storePairs_neighbours : (h.storePairs now age n kept pairs).1.neighbours = h.neighbours := by
  rw [← Hearing.afterPairs_length]
  exact Hearing.afterPairs_neighbours le_rfl

end

/-- A frame's pairs read in body order: a table and a place for each, and the radios concerned (R81 to R83, R87). -/
theorem Hearing.storePairs_spec (now : Time) (age : Nat) (n : Fin 8) (kept : Radio → Bool) (pairs : List (Radio × Nat))
    (h : Hearing) :
    ∃ (table : Nat → Vector (Option HearingEntry) 128) (place : Nat → Fin 128),
      table 0 = h.table ∧ (h.storePairs now age n kept pairs).1.table = table pairs.length
        ∧ (∀ k x, pairs[k]? = some x →
          (kept x.1 = false → table (k + 1) = table k)
            ∧ (kept x.1 = true → PairPlace now n x.1 (table k) (place k)
              ∧ table (k + 1) = (table k).set (place k)
                (some { neighbour := n, radio := x.1, level := x.2, received := now, expiry := after now age })))
        ∧ ∀ r, r ∈ (h.storePairs now age n kept pairs).2 ↔
          ∃ k x, pairs[k]? = some x ∧ kept x.1 = true
            ∧ (r = x.1 ∨ (table k)[place k].map HearingEntry.radio = some r) := by
  let after := h.afterPairs now age n kept pairs
  choose site hplace hstore using fun k x => (after k).1.storePair_spec now age n x
  have hmem : ∀ k x r, r ∈ ((after k).1.storePair now age n x).2 ↔
      r = x.1 ∨ (after k).1.table[site k x].map HearingEntry.radio = some r := fun k x r => by
    rw [hstore]
    simp only [List.mem_cons, Option.mem_toList]
  refine ⟨fun k => (after k).1.table, fun k => site k (pairs[k]?.getD default), rfl, ?_, fun k x hx => ?_, fun r => ?_⟩
  · rw [← Hearing.afterPairs_length]
  · simp only [hx, Option.getD_some]
    refine ⟨fun hkept => ?_, fun hkept => ⟨hplace k x, ?_⟩⟩
    · exact congrArg (·.1.table) (Hearing.afterPairs_succ_discarded hx hkept)
    · exact (congrArg (·.1.table) (Hearing.afterPairs_succ_kept hx hkept)).trans (congrArg (·.1.table) (hstore k x))
  · rw [← Hearing.afterPairs_length, Hearing.mem_afterPairs le_rfl]
    refine exists_congr fun k => exists_congr fun x => ?_
    constructor
    · rintro ⟨-, hx, hkept, hr⟩
      exact ⟨hx, hkept, by simpa only [hx, Option.getD_some] using (hmem k x r).mp hr⟩
    · rintro ⟨hx, hkept, hr⟩
      exact ⟨(List.getElem?_eq_some_iff.mp hx).1, hx, hkept, (hmem k x r).mpr (by simpa only [hx, Option.getD_some] using hr)⟩

/-! ### The frame (R77, R81, R87, R99, R100) -/

/-- A radio whose pairs are stored: HOMED, ASKING or LEAVING here (R81). -/
theorem State.keepsReports_iff (s : State) (r : Radio) :
    s.keepsReports r = true ↔ ∃ e, s.rosterEntry r = some e ∧ e.state ≠ .expected := by
  simp only [State.keepsReports, Option.any_eq_true, bne_iff_ne]

theorem State.addressed_iff (s : State) (f : LinkFrame) :
    s.addressed f = true ↔ f.dest = 0 ∨ f.dest = byteAt s.loader.image 1 := by
  simp only [State.addressed, State.ownSite, Bool.or_eq_true, beq_iff_eq]

/-- A HEARD frame from a configured neighbour, addressed here and dispatched: liveness, then its pairs (R77, R154). -/
theorem exec_dispatch_heard {s : State} {f : LinkFrame} {rest : List LinkFrame} {n : Fin 8} (hreset : s.resetHeld = false)
    (hrx : s.link.rx = f :: rest) (hrunning : s.loader.opState = .running)
    (hsource : s.hearing.neighbourOf f.source = some n) (hkind : f.kind = .heard)
    (hdest : f.dest = 0 ∨ f.dest = byteAt s.loader.image 1) :
    exec .dispatch s = .next
      (((s.withLink { s.link with rx := rest }).hearFrom n).receiveHeard n (s.hearing.neighbours[n].state != .live) f.body) := by
  let taken := s.withLink { s.link with rx := rest }
  have haddressed : taken.addressed f = true := (taken.addressed_iff f).mpr hdest
  have hserved : exec .dispatch s = .next (s.dispatchFrame f rest) := by
    show execDispatch s = _
    rw [execDispatch, serve_high _ hreset, hrx]
    simp only [running_of_opState hrunning, if_true]
  have hneighbour : s.dispatchFrame f rest = taken.dispatchNeighbour n f := by
    simp only [State.dispatchFrame, hsource, taken]
  rw [hserved, hneighbour, State.dispatchNeighbour, if_pos ⟨hkind, haddressed⟩]
  rfl

/-- A HEARD frame has the HOMED entries evaluated of the radios whose hearing entries changed, or all of them (R87, R99). -/
theorem Reevaluated.receiveHeard {s t : State} (n : Fin 8) (all : Bool) (body : List Byte) (hr : t.roster = s.roster) :
    Reevaluated s (t.receiveHeard n all body) fun r =>
      all = true ∨ r ∈ (t.hearing.storePairs t.now (t.par .hearingMaxAge * 100) n t.keepsReports (heardPairs body)).2 := by
  let stored := t.hearing.storePairs t.now (t.par .hearingMaxAge * 100) n t.keepsReports (heardPairs body)
  have heval : Reevaluated s (t.receiveHeard n all body) fun r => (all || stored.2.contains r) = true :=
    Reevaluated.evalRadios (t := t.withHearing stored.1) (fun r => all || stored.2.contains r) hr
  refine heval.congr fun r => ?_
  rw [Bool.or_eq_true, List.contains_iff_mem]

/-- Settles O38: the pairs of the body one by one, then one evaluation of the radios concerned. -/
theorem heardPairIsStoredOrDiscarded : Obligations.HeardPairIsStoredOrDiscarded := by
  intro s f rest n pairs hreset hrx hrunning hsource hkind hdest hcount hbody kept
  let heard := (s.withLink { s.link with rx := rest }).hearFrom n
  have hkeeps : ∀ r, heard.keepsReports r = true ↔ kept r := heard.keepsReports_iff
  have hpairs := heardPairs_body hcount hbody
  obtain ⟨table, place, hzero, hlast, hstep, hchanged⟩ :=
    Hearing.storePairs_spec heard.now (heard.par .hearingMaxAge * 100) n heard.keepsReports (heardPairs f.body) heard.hearing
  have hneighbours := Hearing.storePairs_neighbours (now := heard.now) (age := heard.par .hearingMaxAge * 100) (n := n)
    (kept := heard.keepsReports) (pairs := heardPairs f.body) (h := heard.hearing)
  have hat : ∀ k : Nat, (heardPairs f.body)[k]? = (pairs[k]?).map fun x => (x.1, min x.2.toNat 200) := fun k => by
    rw [hpairs, List.getElem?_map]
  have hpair : ∀ (k : Nat) (x : Radio × Byte), pairs[k]? = some x →
      (heardPairs f.body)[k]? = some (x.1, min x.2.toNat 200) := fun k x hx => by rw [hat, hx]; rfl
  refine ⟨_, table, place, exec_dispatch_heard hreset hrx hrunning hsource hkind hdest, rfl, hneighbours, hzero, ?_,
    fun k x hx => ⟨fun hno => ?_, fun hyes => ?_⟩,
    (Reevaluated.receiveHeard (s := s) (t := heard) n _ f.body rfl).congr fun r => ?_⟩
  · rw [hpairs, List.length_map, ← hpairs] at hlast
    exact hlast
  · exact (hstep k _ (hpair k x hx)).1 (Bool.eq_false_iff.mpr (mt (hkeeps _).mp hno))
  · exact (hstep k _ (hpair k x hx)).2 ((hkeeps _).mpr hyes)
  · rw [bne_iff_ne, hchanged]
    refine or_congr Iff.rfl (exists_congr fun k => ⟨?_, ?_⟩)
    · rintro ⟨_, hy, hkept, hr⟩
      obtain ⟨x, hx, rfl⟩ := Option.map_eq_some_iff.mp ((hat k).symm.trans hy)
      exact ⟨x, hx, (hkeeps _).mp hkept, hr⟩
    · rintro ⟨x, hx, hkept, hr⟩
      exact ⟨_, hpair k x hx, (hkeeps _).mpr hkept, hr⟩

end Sys2Proof.Machine

/-! ## Roster, departure list and hearing table under every operation -/

namespace Sys2Proof.Machine

/-! ### Fields (R32) -/

/-- An entry that holds the fields of HOMED and is marked neither heard while leaving nor reserved (R32, R36, R53). -/
theorem FieldLaw.of_homed {e : RosterEntry} (hstate : e.state = .homed) (hlost : e.lostDeadline.isSome = true)
    (harrival : e.arrival.isSome = true) (hreservation : e.reservation = none)
    (hready : e.askReady = true → e.dwell = none) (hheard : e.heardWhileLeaving = false) : FieldLaw e := by
  constructor <;> simp_all

/-- An entry that holds the fields of ASKING or LEAVING (R32). -/
theorem FieldLaw.of_departing {e : RosterEntry} (hstate : e.state = .asking ∨ e.state = .leaving)
    (hlost : e.lostDeadline = none) (harrival : e.arrival.isSome = true) (hreservation : e.reservation = none)
    (hdwell : e.dwell = none) (hready : e.askReady = false) (hheard : e.heardWhileLeaving = true → e.state = .leaving) :
    FieldLaw e := by
  rcases hstate with hstate | hstate <;> constructor <;> simp_all

theorem FieldLaw.reservation_none {e : RosterEntry} (h : FieldLaw e) (hstate : e.state ≠ .expected) :
    e.reservation = none := by
  simpa using mt h.reservation.mp hstate

theorem FieldLaw.lost_none {e : RosterEntry} (h : FieldLaw e) (hstate : e.state ≠ .homed) : e.lostDeadline = none := by
  simpa using mt h.lost.mp hstate

theorem FieldLaw.dwell_none {e : RosterEntry} (h : FieldLaw e) (hstate : e.state ≠ .homed) : e.dwell = none := by
  simpa using mt h.dwell hstate

theorem FieldLaw.askReady_false {e : RosterEntry} (h : FieldLaw e) (hstate : e.state ≠ .homed) : e.askReady = false := by
  simpa using mt (fun hr => (h.askReady hr).1) hstate

theorem FieldLaw.newHomed (s : State) (o : Observation) : FieldLaw (s.newHomed o) := by
  refine .of_homed ?_ ?_ ?_ ?_ ?_ ?_ <;> simp [State.newHomed]

theorem FieldLaw.newExpected (s : State) (r : Radio) (f : Nat) (source sequence : Byte) :
    FieldLaw (s.newExpected r f source sequence) := by
  constructor <;> simp [State.newExpected]

/-- A return to HOMED from an entry that was not a reservation (R53). -/
theorem FieldLaw.backHome {e : RosterEntry} (h : FieldLaw e) (hstate : e.state ≠ .expected) (s : State) (n : Fin 8) :
    FieldLaw (s.backHome n e) := by
  refine .of_homed ?_ ?_ ?_ ?_ ?_ ?_ <;>
    simp [State.backHome, h.arrival, h.reservation_none hstate, hstate]

/-- A HOMED entry made ASKING (R52). -/
theorem FieldLaw.toAsking {e : RosterEntry} (h : FieldLaw e) (hstate : e.state = .homed) : FieldLaw e.toAsking := by
  have hheard : e.heardWhileLeaving = true → e.state = .leaving := h.heard
  refine .of_departing ?_ ?_ ?_ ?_ ?_ ?_ ?_ <;>
    simp_all [RosterEntry.toAsking, h.arrival, h.reservation_none]

/-- An ASKING entry made LEAVING (R54). -/
theorem FieldLaw.toLeaving {e : RosterEntry} (h : FieldLaw e) (hstate : e.state = .asking) : FieldLaw e.toLeaving := by
  refine .of_departing ?_ ?_ ?_ ?_ ?_ ?_ ?_ <;>
    simp [RosterEntry.toLeaving, h.arrival, h.reservation_none, h.lost_none, h.dwell_none, h.askReady_false, hstate]

/-- An evaluation keeps the fields of HOMED: a dwell deadline is set only where the entry is not ask-ready (R91). -/
theorem FieldLaw.evaluated {e : RosterEntry} (h : FieldLaw e) (s : State) : FieldLaw (s.evaluated e) := by
  unfold State.evaluated
  split
  · exact h
  · next hhomed =>
    have hhomed : e.state = .homed := by simpa using hhomed
    have hreservation := h.reservation_none (by simp [hhomed])
    have hheard : e.heardWhileLeaving = false := by simpa [hhomed] using h.heard
    split
    · exact .of_homed hhomed (h.lost.mpr hhomed) (h.arrival.mpr (by simp [hhomed])) hreservation (by simp) hheard
    · split
      · exact h
      · next hidle =>
        have hready : e.askReady = false := by simp_all
        exact .of_homed hhomed (h.lost.mpr hhomed) (h.arrival.mpr (by simp [hhomed])) hreservation (by simp [hready])
          hheard

/-! ### An entry changed in place -/

/-- From `e` to `e'` radio and state stay, and the fields of the state are held as they were. -/
structure EntryKept (e e' : RosterEntry) : Prop where
  radio : e'.radio = e.radio
  state : e'.state = e.state
  fields : FieldLaw e → FieldLaw e'

theorem EntryKept.refl (e : RosterEntry) : EntryKept e e := ⟨rfl, rfl, id⟩

theorem EntryKept.evaluated (s : State) (e : RosterEntry) : EntryKept e (s.evaluated e) :=
  ⟨s.evaluated_radio e, s.evaluated_state e, fun h => h.evaluated s⟩

/-- A change of fields that no state binds, or that stay present or absent as they were. -/
theorem EntryKept.of_fields {e e' : RosterEntry} (hradio : e'.radio = e.radio) (hstate : e'.state = e.state)
    (hlost : e'.lostDeadline.isSome = e.lostDeadline.isSome) (hreservation : e'.reservation.isSome = e.reservation.isSome)
    (harrival : e'.arrival.isSome = e.arrival.isSome)
    (haway : e'.away.isSome = true → e.away.isSome = true ∨ e.state ≠ .expected)
    (hexclusion : e'.exclusion.isSome = true → e.exclusion.isSome = true)
    (hdwell : e'.dwell = e.dwell) (hready : e'.askReady = e.askReady)
    (hheard : e'.heardWhileLeaving = true → e.heardWhileLeaving = true ∨ e.state = .leaving) : EntryKept e e' where
  radio := hradio
  state := hstate
  fields := fun h =>
    { lost := by rw [hlost, hstate]; exact h.lost
      reservation := by rw [hreservation, hstate]; exact h.reservation
      arrival := by rw [harrival, hstate]; exact h.arrival
      away := fun ha => by rw [hstate]; exact (haway ha).elim h.away id
      exclusion := fun hx => by rw [hstate]; exact h.exclusion (hexclusion hx)
      dwell := by rw [hdwell, hstate]; exact h.dwell
      askReady := by rw [hready, hdwell, hstate]; exact h.askReady
      heard := fun hh => by rw [hstate]; exact (hheard hh).elim h.heard id }

/-- An entry that is not a reservation, refreshed by an own-path observation (R38). -/
theorem EntryKept.refreshed (s : State) (o : Observation) {e : RosterEntry} (hstate : e.state ≠ .expected) :
    EntryKept e (s.refreshed o e) := by
  refine ⟨rfl, rfl, fun h => ⟨?_, h.reservation, h.arrival, fun _ => hstate, h.exclusion, h.dwell, h.askReady, h.heard⟩⟩
  by_cases hhomed : e.state = .homed
  · simp [State.refreshed, hhomed]
  · simpa [State.refreshed, hhomed] using h.lost_none hhomed

/-- An entry taken by a monitor path (R44, R45). -/
theorem EntryKept.sighted (s : State) (o : Observation) (e : RosterEntry) : EntryKept e (s.sighted o e) := by
  unfold State.sighted
  split
  · exact .of_fields rfl rfl rfl rfl rfl .inl id rfl rfl .inl
  · next hs => exact .of_fields rfl rfl (by simp) rfl rfl (fun _ => .inr (by simp [hs])) id rfl rfl .inl
  · next hs => exact .of_fields rfl rfl rfl rfl rfl (fun _ => .inr (by simp [hs])) id rfl rfl .inl
  · next hs => exact .of_fields rfl rfl rfl rfl rfl (fun _ => .inr (by simp [hs])) id rfl rfl .inl

/-! ### One radio's entry and records -/

/-- From `s` to `t` the roster changes at index `i` alone, where the radio `r` or no radio stands, and the departure list in
records of `r` alone. -/
structure ChangesOf (s t : State) (i : Fin 64) (r : Radio) : Prop where
  here : ∀ e, s.roster.entries[i] = some e → e.radio = r
  elsewhere : ∀ (j : Fin 64) e, s.roster.entries[j] = some e → e.radio = r → j = i
  others : ∀ j : Fin 64, j ≠ i → t.roster.entries[j] = s.roster.entries[j]
  records : ∀ (p : Fin 4) d, d.radio ≠ r → (t.nego.departures[p] = some d ↔ s.nego.departures[p] = some d)

/-- The entry at index `i`, where one stands, is of the radio `r`, and the records of `r` fit it: none where it is HOMED,
EXPECTED or free, and else one, of its phase. -/
inductive FitsAt (t : State) (i : Fin 64) (r : Radio) : Prop where
  | alone
    (entry : ∀ e, t.roster.entries[i] = some e → e.radio = r ∧ FieldLaw e ∧ (e.state = .homed ∨ e.state = .expected))
    (noRecord : ∀ (p : Fin 4) d, t.nego.departures[p] = some d → d.radio ≠ r)
  | recorded {e : RosterEntry} {p : Fin 4} {d : Departure} (entry : t.roster.entries[i] = some e)
    (record : t.nego.departures[p] = some d) (radio : e.radio = r) (same : d.radio = r) (index : d.rosterIndex = i)
    (fields : FieldLaw e) (state : e.state = d.phase.entryState)
    (one : ∀ (q : Fin 4) d', t.nego.departures[q] = some d' → d'.radio = r → q = p)

theorem FitsAt.entry_fits {t : State} {i : Fin 64} {r : Radio} (h : FitsAt t i r) {e : RosterEntry}
    (he : t.roster.entries[i] = some e) : e.radio = r ∧ FieldLaw e := by
  cases h with
  | alone entry _ => exact ⟨(entry e he).1, (entry e he).2.1⟩
  | recorded entry _ radio _ _ fields _ _ =>
    obtain rfl := Option.some.inj (entry.symm.trans he)
    exact ⟨radio, fields⟩

/-- Where one radio's entry and records change and fit, and the law held before, it holds after (R111). -/
theorem DepartureLaw.changed {s t : State} {i : Fin 64} {r : Radio} (h : DepartureLaw s) (hc : ChangesOf s t i r)
    (hf : FitsAt t i r) : DepartureLaw t where
  roster := by
    have hcross : ∀ (k : Fin 64) x y, k ≠ i → t.roster.entries[k] = some x → t.roster.entries[i] = some y →
        x.radio ≠ y.radio := fun k x y hk hx hy hxy => by
      rw [hc.others k hk] at hx
      exact hk (hc.elsewhere k x hx (hxy.trans (hf.entry_fits hy).1))
    intro j k e f he hek hef
    by_cases hj : j = i <;> by_cases hk : k = i
    · rw [hj, hk]
    · subst hj; exact absurd hef.symm (hcross k f e hk hek he)
    · subst hk; exact absurd hef (hcross j e f hj he hek)
    · rw [hc.others j hj] at he
      rw [hc.others k hk] at hek
      exact h.roster j k e f he hek hef
  fields := fun j e he => by
    by_cases hj : j = i
    · subst hj; exact (hf.entry_fits he).2
    · exact h.fields j e (by rw [← hc.others j hj]; exact he)
  hasEntry := fun p d hd => by
    by_cases hdr : d.radio = r
    · cases hf with
      | alone _ noRecord => exact absurd hdr (noRecord p d hd)
      | recorded entry record radio same index _ state one =>
        obtain rfl := one p d hd hdr
        obtain rfl := Option.some.inj (hd.symm.trans record)
        subst index
        exact ⟨_, entry, radio.trans same.symm, state⟩
    · obtain ⟨e, he, her, hes⟩ := h.hasEntry p d ((hc.records p d hdr).mp hd)
      have hne : d.rosterIndex ≠ i := fun hi => by
        subst hi
        exact hdr (her.symm.trans (hc.here e he))
      exact ⟨e, by rw [hc.others _ hne]; exact he, her, hes⟩
  hasRecord := fun j e he hs => by
    by_cases hj : j = i
    · subst hj
      cases hf with
      | alone entry _ =>
        obtain ⟨-, -, hstate⟩ := entry e he
        rcases hs with hs | hs <;> simp [hs] at hstate
      | recorded _ record _ _ index _ _ _ => exact ⟨_, _, record, index⟩
    · have he' : s.roster.entries[j] = some e := by rw [← hc.others j hj]; exact he
      obtain ⟨p, d, hd, rfl⟩ := h.hasRecord j e he' hs
      obtain ⟨x, hx, hxr, -⟩ := h.hasEntry p d hd
      obtain rfl := Option.some.inj (hx.symm.trans he')
      have hdr : d.radio ≠ r := fun hdr => hj (hc.elsewhere _ x hx (hxr.trans hdr))
      exact ⟨p, d, (hc.records p d hdr).mpr hd, rfl⟩
  oneRecord := fun p q d d' hd hd' hdd => by
    by_cases hdr : d.radio = r
    · cases hf with
      | alone _ noRecord => exact absurd hdr (noRecord p d hd)
      | recorded _ _ _ _ _ _ _ one => rw [one p d hd hdr, one q d' hd' (hdd ▸ hdr)]
    · exact h.oneRecord p q d d' ((hc.records p d hdr).mp hd) ((hc.records q d' (hdd ▸ hdr)).mp hd') hdd

/-- An entry of a lawful state stands alone for its radio. -/
theorem DepartureLaw.changesOf {s t : State} (h : DepartureLaw s) {i : Fin 64} {e : RosterEntry}
    (he : s.roster.entries[i] = some e) (ho : ∀ j : Fin 64, j ≠ i → t.roster.entries[j] = s.roster.entries[j])
    (hr : ∀ (p : Fin 4) d, d.radio ≠ e.radio → (t.nego.departures[p] = some d ↔ s.nego.departures[p] = some d)) :
    ChangesOf s t i e.radio where
  here := fun x hx => by rw [Option.some.inj (hx.symm.trans he)]
  elsewhere := fun j x hx hxr => h.roster j i x e hx he hxr
  others := ho
  records := hr

/-- A HOMED or EXPECTED entry has no departure record (R111). -/
theorem DepartureLaw.no_record {s : State} (h : DepartureLaw s) {i : Fin 64} {e : RosterEntry}
    (he : s.roster.entries[i] = some e) (hs : e.state = .homed ∨ e.state = .expected) (p : Fin 4) (d : Departure)
    (hd : s.nego.departures[p] = some d) : d.radio ≠ e.radio := fun hdr => by
  obtain ⟨x, hx, hxr, hxs⟩ := h.hasEntry p d hd
  obtain rfl := h.roster _ i x e hx he (hxr.trans hdr)
  obtain rfl := Option.some.inj (hx.symm.trans he)
  rcases hs with hs | hs <;> rw [hs] at hxs <;> cases hp : d.phase <;> simp [hp, Phase.entryState] at hxs

/-- A departure record of a lawful state and the entry at its index. -/
theorem DepartureLaw.entry_of_record {s : State} (h : DepartureLaw s) {p : Fin 4} {d : Departure}
    (hd : s.nego.departures[p] = some d) :
    ∃ e, s.roster.entries[d.rosterIndex] = some e ∧ e.radio = d.radio ∧ e.state = d.phase.entryState ∧ FieldLaw e
      ∧ e.state ≠ .expected ∧ e.state ≠ .homed := by
  obtain ⟨e, he, her, hes⟩ := h.hasEntry p d hd
  refine ⟨e, he, her, hes, h.fields _ e he, ?_, ?_⟩ <;> rw [hes] <;> cases d.phase <;> simp [Phase.entryState]

theorem RecordRemoved.records {s t : State} {r : Radio} (h : RecordRemoved s t r) (p : Fin 4) (d : Departure)
    (hd : d.radio ≠ r) : t.nego.departures[p] = some d ↔ s.nego.departures[p] = some d := by
  cases hp : s.nego.departures[p] with
  | none => simp [h.free p hp]
  | some x =>
    rw [h.removed p x hp]
    by_cases hx : x.radio = r
    · simpa [hx] using fun hxd : x = d => hd (hxd ▸ hx)
    · simp [hx]

theorem RecordRemoved.no_record {s t : State} {r : Radio} (h : RecordRemoved s t r) (p : Fin 4) (d : Departure)
    (hd : t.nego.departures[p] = some d) : d.radio ≠ r := by
  cases hp : s.nego.departures[p] with
  | none => rw [h.free p hp] at hd; cases hd
  | some x =>
    rw [h.removed p x hp] at hd
    split at hd
    · cases hd
    · next hx => obtain rfl := Option.some.inj hd; exact hx

/-! ### The departure law under the changes of one radio -/

/-- A radio that has no entry joins the roster, HOMED or EXPECTED (R34, R36, R49). -/
theorem DepartureLaw.join {s t : State} {i : Fin 64} {e : RosterEntry} (h : DepartureLaw s)
    (hfree : s.roster.entries[i] = none) (hr : s.rosterIndex e.radio = none)
    (ht : t.roster.entries = s.roster.entries.set i (some e)) (hd : t.nego.departures = s.nego.departures)
    (hf : FieldLaw e) (hs : e.state = .homed ∨ e.state = .expected) : DepartureLaw t := by
  refine h.changed (i := i) (r := e.radio) ?_ (.alone (fun x hx => ?_) fun p d hpd hdr => ?_)
  · exact ⟨fun x hx => by simp [hfree] at hx, fun j x hx hxr => absurd hxr (radio_ne_of_rosterIndex_none hr hx),
      fun j hj => by rw [ht]; exact getElem_setSlot_ne _ _ hj, fun p d _ => by rw [hd]⟩
  · rw [ht, getElem_setSlot_self] at hx
    obtain rfl := Option.some.inj hx
    exact ⟨rfl, hf, hs⟩
  · rw [hd] at hpd
    obtain ⟨x, hx, hxr, -⟩ := h.hasEntry p d hpd
    exact radio_ne_of_rosterIndex_none hr hx (hxr.trans hdr)

/-- An entry removed with its record, where it had one (R48). -/
theorem DepartureLaw.removed {s t : State} {i : Fin 64} {e : RosterEntry} (h : DepartureLaw s)
    (he : s.roster.entries[i] = some e) (ht : EntryRemoved s t i e.radio) (hr : RecordRemoved s t e.radio) :
    DepartureLaw t :=
  h.changed (h.changesOf he ht.others hr.records)
    (.alone (fun x hx => by rw [ht.position] at hx; cases hx) hr.no_record)

/-- A HOMED or EXPECTED entry removed, the departure list staying as it was (R46, R51). -/
theorem DepartureLaw.removed_simple {s t : State} {i : Fin 64} {e : RosterEntry} (h : DepartureLaw s)
    (he : s.roster.entries[i] = some e) (hs : e.state = .homed ∨ e.state = .expected) (ht : EntryRemoved s t i e.radio)
    (hd : t.nego.departures = s.nego.departures) : DepartureLaw t :=
  h.changed (h.changesOf he ht.others fun p d _ => by rw [hd])
    (.alone (fun x hx => by rw [ht.position] at hx; cases hx) fun p d hp => h.no_record he hs p d (by rw [← hd]; exact hp))

/-- An entry of a departure made HOMED, its record removed (R53). -/
theorem DepartureLaw.homed {s t : State} {i : Fin 64} {e e' : RosterEntry} (h : DepartureLaw s)
    (he : s.roster.entries[i] = some e) (ho : ∀ j : Fin 64, j ≠ i → t.roster.entries[j] = s.roster.entries[j])
    (he' : t.roster.entries[i] = some e') (hradio : e'.radio = e.radio) (hstate : e'.state = .homed) (hf : FieldLaw e')
    (hr : ∀ (p : Fin 4) d, d.radio ≠ e.radio → (t.nego.departures[p] = some d ↔ s.nego.departures[p] = some d))
    (hno : ∀ (p : Fin 4) d, t.nego.departures[p] = some d → d.radio ≠ e.radio) : DepartureLaw t := by
  refine h.changed (h.changesOf he ho hr) (.alone (fun x hx => ?_) hno)
  obtain rfl := Option.some.inj (he'.symm.trans hx)
  exact ⟨hradio, hf, .inl hstate⟩

/-- An entry that gets a record of its phase, the only one of its radio (R113). -/
theorem DepartureLaw.recorded {s t : State} {i : Fin 64} {e e' : RosterEntry} {p : Fin 4} {d : Departure}
    (h : DepartureLaw s) (he : s.roster.entries[i] = some e)
    (ho : ∀ j : Fin 64, j ≠ i → t.roster.entries[j] = s.roster.entries[j]) (he' : t.roster.entries[i] = some e')
    (hradio : e'.radio = e.radio) (hf : FieldLaw e') (hstate : e'.state = d.phase.entryState)
    (hd : t.nego.departures = s.nego.departures.set p (some d)) (hdr : d.radio = e.radio) (hdi : d.rosterIndex = i)
    (hold : ∀ x, s.nego.departures[p] = some x → x.radio = e.radio)
    (hno : ∀ (q : Fin 4) x, s.nego.departures[q] = some x → x.radio = e.radio → q = p) : DepartureLaw t := by
  refine h.changed (h.changesOf he ho fun q x hx => ?_)
    (.recorded (p := p) (d := d) he' (by rw [hd]; exact getElem_setSlot_self _ _ _) hradio hdr hdi hf hstate fun q x hq hx => ?_)
  · rw [hd, getElem_setSlot]
    split
    · next hq =>
      subst hq
      constructor
      · intro hxd
        obtain rfl := Option.some.inj hxd
        exact absurd hdr hx
      · intro hxs
        exact absurd (hold x hxs) hx
    · rfl
  · rw [hd, getElem_setSlot] at hq
    split at hq
    · next hqp => exact hqp
    · exact hno q x hq hx

/-- Entries changed in place, radio and state staying, with the departure list as it was. -/
theorem DepartureLaw.kept {s t : State} (h : DepartureLaw s) (g : Fin 64 → RosterEntry → RosterEntry)
    (hg : ∀ (i : Fin 64) e, s.roster.entries[i] = some e → EntryKept e (g i e))
    (ht : ∀ i : Fin 64, t.roster.entries[i] = s.roster.entries[i].map (g i))
    (hd : t.nego.departures = s.nego.departures) : DepartureLaw t := by
  have hback : ∀ (i : Fin 64) e, t.roster.entries[i] = some e → ∃ e', s.roster.entries[i] = some e' ∧ EntryKept e' e :=
    fun i e he => by
      rw [ht] at he
      obtain ⟨e', he', rfl⟩ := Option.map_eq_some_iff.mp he
      exact ⟨e', he', hg i e' he'⟩
  refine ⟨fun i j e f he hf hef => ?_, fun i e he => ?_, fun p d hp => ?_, fun i e he hs => ?_, fun p q d d' hp hq => ?_⟩
  · obtain ⟨e', he', hke⟩ := hback i e he
    obtain ⟨f', hf', hkf⟩ := hback j f hf
    exact h.roster i j e' f' he' hf' (by rw [← hke.radio, ← hkf.radio, hef])
  · obtain ⟨e', he', hke⟩ := hback i e he
    exact hke.fields (h.fields i e' he')
  · obtain ⟨e, he, her, hes⟩ := h.hasEntry p d (by rw [← hd]; exact hp)
    have hke := hg _ e he
    exact ⟨_, by rw [ht, he]; rfl, hke.radio.trans her, hke.state.trans hes⟩
  · obtain ⟨e', he', hke⟩ := hback i e he
    rw [hke.state] at hs
    rw [hd]
    exact h.hasRecord i e' he' hs
  · rw [hd] at hp hq
    exact h.oneRecord p q d d' hp hq

end Sys2Proof.Machine

/-! ## Departures and hearings under every operation -/

namespace Sys2Proof.Machine

/-! ### What an evaluation leaves, as one entry -/

/-- The table of R91 leaves one entry. -/
theorem EvaluatedTo.eq_evaluated {s : State} {before after : RosterEntry} (h : EvaluatedTo s before after)
    (hstate : before.state = .homed) : after = s.evaluated before := by
  have k := s.evaluated_homed hstate
  have hsame : after.dwell = (s.evaluated before).dwell ∧ after.askReady = (s.evaluated before).askReady := by
    cases hc : s.candidate before with
    | false => rw [(h.notMet hc).1, (h.notMet hc).2, (k.notMet hc).1, (k.notMet hc).2]; exact ⟨rfl, rfl⟩
    | true =>
      by_cases hidle : before.dwell = none ∧ before.askReady = false
      · obtain ⟨hd, hr⟩ := hidle
        rw [(h.starts hc hd hr).1, (h.starts hc hd hr).2, (k.starts hc hd hr).1, (k.starts hc hd hr).2]; exact ⟨rfl, rfl⟩
      · have hbusy : before.dwell.isSome = true ∨ before.askReady = true := by
          by_contra hn
          simp only [not_or, Bool.not_eq_true, Option.isSome_eq_false_iff, Option.isNone_iff_eq_none] at hn
          exact hidle hn
        rw [(h.keeps hc hbusy).1, (h.keeps hc hbusy).2, (k.keeps hc hbusy).1, (k.keeps hc hbusy).2]; exact ⟨rfl, rfl⟩
  rw [h.others, hsame.1, hsame.2, ← k.others]

/-- The entry that a change leaves, evaluated where it is HOMED. -/
theorem EntryBecomes.entry_eq {s t : State} {i : Fin 64} {before : RosterEntry} (h : EntryBecomes s t i before) :
    t.roster.entries[i] = some (t.evaluated before) := by
  obtain ⟨after, hafter, hhomed, hother⟩ := h.entry
  by_cases hstate : before.state = .homed
  · rw [hafter, (hhomed hstate).eq_evaluated hstate]
  · rw [hafter, hother hstate, t.evaluated_other hstate]

/-! ### Hearing entries that stay justified (R80) -/

/-- The radio has an entry in HOMED, ASKING or LEAVING. -/
def State.Rosters (s : State) (r : Radio) : Prop :=
  ∃ (i : Fin 64) (x : RosterEntry), s.roster.entries[i] = some x ∧ x.radio = r ∧ x.state ≠ .expected

/-- From `s` to `t` no hearing entry joins, and what justifies one that stays, justifies it still. -/
structure HearingsStand (s t : State) : Prop where
  resetHeld : t.resetHeld = s.resetHeld
  loaded : t.loaded = s.loaded
  table : ∀ (j : Fin 128) e, t.hearing.table[j] = some e → s.hearing.table[j] = some e
  live : ∀ (j : Fin 128) e, t.hearing.table[j] = some e → s.hearing.neighbours[e.neighbour].state = .live →
    t.hearing.neighbours[e.neighbour].state = .live
  rostered : ∀ (j : Fin 128) e, t.hearing.table[j] = some e → s.Rosters e.radio → t.Rosters e.radio

theorem HearingsStand.trans {s t u : State} (h : HearingsStand s t) (k : HearingsStand t u) : HearingsStand s u where
  resetHeld := k.resetHeld.trans h.resetHeld
  loaded := k.loaded.trans h.loaded
  table := fun j e he => h.table j e (k.table j e he)
  live := fun j e he hl => k.live j e he (h.live j e (k.table j e he) hl)
  rostered := fun j e he hr => k.rostered j e he (h.rostered j e (k.table j e he) hr)

theorem HearingLaw.stands {s t : State} (hs : HearingLaw s) (h : HearingsStand s t) : HearingLaw t where
  reset := by unfold ResetLaw; rw [h.resetHeld, h.loaded]; exact hs.reset
  unloaded := fun hl j => by
    rw [h.loaded] at hl
    cases hj : t.hearing.table[j] with
    | none => rfl
    | some e => exact absurd (h.table j e hj) (by simp [hs.unloaded hl j])
  live := fun j e he => h.live j e he (hs.live j e (h.table j e he))
  rostered := fun j e he => h.rostered j e he (hs.rostered j e (h.table j e he))
  onePerPair := fun i j e f he hf => hs.onePerPair i j e f (h.table i e he) (h.table j f hf)

/-- A hearing table that holds nothing is lawful (R90). -/
theorem HearingLaw.of_empty {t : State} (hr : ResetLaw t) (h : ∀ j : Fin 128, t.hearing.table[j] = none) :
    HearingLaw t where
  reset := hr
  unloaded := fun _ => h
  live := fun j e he => by rw [h j] at he; cases he
  rostered := fun j e he => by rw [h j] at he; cases he
  onePerPair := fun i _ e _ he => by rw [h i] at he; cases he

/-- The hearing table stays, and no entry of the roster leaves or becomes a reservation. -/
theorem HearingsStand.of_entries {s t : State}
    (hr : ∀ (i : Fin 64) e, s.roster.entries[i] = some e → e.state ≠ .expected →
      ∃ e', t.roster.entries[i] = some e' ∧ e'.radio = e.radio ∧ e'.state ≠ .expected)
    (hh : t.hearing = s.hearing := by simp) (hreset : t.resetHeld = s.resetHeld := by simp)
    (hloaded : t.loaded = s.loaded := by simp) : HearingsStand s t where
  resetHeld := hreset
  loaded := hloaded
  table := fun j e he => by rw [← hh]; exact he
  live := fun j e _ hl => by rw [hh]; exact hl
  rostered := fun j e _ ⟨i, x, hx, hxr, hxs⟩ => by
    obtain ⟨e', he', her, hes⟩ := hr i x hx hxs
    exact ⟨i, e', he', her.trans hxr, hes⟩

theorem HearingsStand.of_blocks {s t : State} (hr : t.roster.entries = s.roster.entries := by simp)
    (hh : t.hearing = s.hearing := by simp) (hreset : t.resetHeld = s.resetHeld := by simp)
    (hloaded : t.loaded = s.loaded := by simp) : HearingsStand s t :=
  .of_entries (fun _ e he hs => ⟨e, by rw [hr]; exact he, rfl, hs⟩) hh hreset hloaded

theorem HearingsStand.refl (s : State) : HearingsStand s s := .of_blocks

/-- A change that is followed by one of the blocks that do not matter here. -/
theorem HearingsStand.then {s t u : State} (h : HearingsStand s t) (hr : u.roster.entries = t.roster.entries := by simp)
    (hh : u.hearing = t.hearing := by simp) (hreset : u.resetHeld = t.resetHeld := by simp)
    (hloaded : u.loaded = t.loaded := by simp) : HearingsStand s u :=
  h.trans (.of_blocks hr hh hreset hloaded)

theorem HearingsStand.updateEntry (i : Fin 64) (f : RosterEntry → RosterEntry) (s : State)
    (hr : ∀ e, (f e).radio = e.radio) (hs : ∀ e, e.state ≠ .expected → (f e).state ≠ .expected) :
    HearingsStand s (s.updateEntry i f) := by
  refine .of_entries fun j e he hne => ?_
  rw [State.updateEntry_at]
  split
  · next hj => subst hj; exact ⟨f e, by rw [he]; rfl, hr e, hs e hne⟩
  · exact ⟨e, he, rfl, hne⟩

theorem HearingsStand.evalAt (i : Fin 64) (s : State) : HearingsStand s (s.evalAt i) :=
  .updateEntry i _ s s.evaluated_radio fun e h => by rw [s.evaluated_state]; exact h

/-- An entry removed takes the hearing entries of its radio with it (R85). -/
theorem HearingsStand.removed {s t : State} {i : Fin 64} {e : RosterEntry} (he : s.roster.entries[i] = some e)
    (h : EntryRemoved s t i e.radio) (hreset : t.resetHeld = s.resetHeld := by simp)
    (hloaded : t.loaded = s.loaded := by simp) : HearingsStand s t := by
  have htable : ∀ (j : Fin 128) x, t.hearing.table[j] = some x → s.hearing.table[j] = some x ∧ x.radio ≠ e.radio := by
    intro j x hx
    cases hj : s.hearing.table[j] with
    | none => rw [h.free j hj] at hx; cases hx
    | some y =>
      rw [h.pruned j y hj] at hx
      split at hx
      · cases hx
      · next hy => obtain rfl := Option.some.inj hx; exact ⟨rfl, hy⟩
  refine ⟨hreset, hloaded, fun j x hx => (htable j x hx).1, fun j x _ hl => by rw [h.neighbours]; exact hl,
    fun j x hx ⟨k, y, hy, hyr, hys⟩ => ?_⟩
  have hk : k ≠ i := fun hk => by
    subst hk
    obtain rfl := Option.some.inj (hy.symm.trans he)
    exact (htable j x hx).2 hyr.symm
  exact ⟨k, y, by rw [h.others k hk]; exact hy, hyr, hys⟩

theorem HearingsStand.removeEntry (i : Fin 64) (s : State) : HearingsStand s (s.removeEntry i) := by
  cases he : s.roster.entries[i] with
  | none => unfold State.removeEntry; rw [he]; exact .refl s
  | some e => exact .removed he (State.removeEntry_removed he)

/-- A departure is opened for an entry and in a free position of the list; otherwise nothing happens. -/
theorem State.openDeparture_cases (i : Fin 64) (n : Fin 8) (s : State) :
    s.openDeparture i n = s ∨ ∃ e p, s.roster.entries[i] = some e ∧ lowestFree s.nego.departures = some p := by
  unfold State.openDeparture
  split
  · next e p he hp => exact .inr ⟨e, p, he, hp⟩
  · exact .inl rfl

theorem State.openDeparture_entries {s : State} {i : Fin 64} {e : RosterEntry} {n : Fin 8} {p : Fin 4}
    (he : s.roster.entries[i] = some e) (hp : lowestFree s.nego.departures = some p) :
    (s.openDeparture i n).roster.entries = updateAt s.roster.entries i RosterEntry.toAsking := by
  rw [State.openDeparture_eq he hp rfl, State.bump_roster]
  simp [State.updateEntry]

theorem State.openDeparture_nego {s : State} {i : Fin 64} {e : RosterEntry} {n : Fin 8} {p : Fin 4}
    (he : s.roster.entries[i] = some e) (hp : lowestFree s.nego.departures = some p) :
    (s.openDeparture i n).nego =
      { s.nego with
        departures := s.nego.departures.set p (some (s.newDeparture i e n)), sequence := s.nego.sequence + 1 } := by
  rw [State.openDeparture_eq he hp rfl]
  simp

theorem HearingsStand.openDeparture (i : Fin 64) (n : Fin 8) (s : State) : HearingsStand s (s.openDeparture i n) := by
  rcases s.openDeparture_cases i n with hsame | ⟨e, p, he, hp⟩
  · rw [hsame]; exact .refl s
  · refine .of_entries fun j x hx hne => ?_
    rw [State.openDeparture_entries he hp, getElem_updateAt]
    split
    · next hj => subst hj; exact ⟨x.toAsking, by rw [hx]; rfl, rfl, by simp [RosterEntry.toAsking]⟩
    · exact ⟨x, hx, rfl, hne⟩

theorem HearingsStand.revert (d : Departure) (s : State) : HearingsStand s (s.revert d) := by
  let u : State := if d.phase = .leaving then (s.dropDeparture d.radio).removeOrder d.radio else s.dropDeparture d.radio
  have hu : HearingsStand s u := by
    simp only [u]
    split <;> exact .of_blocks
  have hback := HearingsStand.updateEntry d.rosterIndex (s.returned d.target) u (fun _ => rfl) fun _ _ => by
    simp [State.backHome]
  exact (hu.trans hback).trans (.evalAt _ _)

/-! ### A handset that is gone (R48, R122, R124, R132) -/

/-- The state of a handset that has gone, before the arbiter is taken: entry, record and order removed, the history made. -/
def State.gone (i : Fin 64) (r : Radio) (toSite : Byte) (outcome : Departed) (s : State) : State :=
  (((s.removeEntry i).dropDeparture r).removeOrder r).record r toSite outcome

theorem State.depart_eq (i : Fin 64) (r : Radio) (toSite : Byte) (outcome : Departed) (s : State) :
    s.depart i r toSite outcome =
      if (s.departureIndex r).isSome then (s.gone i r toSite outcome).arbiter else s.gone i r toSite outcome := rfl

/-- What a removal leaves of departures and orders, the radio's record and order being removed after it. -/
theorem State.removeEntry_rest {s : State} {i : Fin 64} {e : RosterEntry} (he : s.roster.entries[i] = some e) :
    ((s.removeEntry i).dropDeparture e.radio).nego = (s.dropDeparture e.radio).nego
      ∧ (s.removeEntry i).steer.remove e.radio = s.steer.remove e.radio := by
  have hnego : ∀ u : State, u.nego = s.nego →
      ((u.dropDeparture e.radio).dropDeparture e.radio).nego = (s.dropDeparture e.radio).nego := fun u hu => by
    simp only [State.dropDeparture, State.withNego_nego, dropEntries_twice, hu]
  unfold State.removeEntry
  rw [he]
  dsimp only
  cases e.state with
  | homed => exact ⟨rfl, rfl⟩
  | expected => exact ⟨rfl, rfl⟩
  | asking => exact ⟨hnego _ rfl, rfl⟩
  | leaving =>
    refine ⟨?_, ?_⟩
    · exact hnego (((s.withRoster _).withHearing _)) rfl
    · exact SteerQueue.remove_twice _ _

/-- A handset that has gone, whole. -/
theorem State.gone_spec {s : State} {i : Fin 64} {e : RosterEntry} (he : s.roster.entries[i] = some e) (site : Byte)
    (o : Departed) :
    EntryRemoved s (s.gone i e.radio site o) i e.radio ∧ RecordRemoved s (s.gone i e.radio site o) e.radio
      ∧ (s.gone i e.radio site o).steer = s.steer.remove e.radio
      ∧ (s.gone i e.radio site o).nego.last = some { radio := e.radio, toSite := site, stamp := s.now, outcome := o }
      ∧ (s.gone i e.radio site o).nego.previous = s.nego.last := by
  obtain ⟨hnego, hsteer⟩ := State.removeEntry_rest he
  have hg : (s.gone i e.radio site o).nego =
      { (s.dropDeparture e.radio).nego with
        last := some { radio := e.radio, toSite := site, stamp := s.now, outcome := o }
        previous := (s.dropDeparture e.radio).nego.last } := by
    rw [← hnego]
    simp [State.gone, State.record]
  refine ⟨(State.removeEntry_removed he).of_blocks (by simp [State.gone]) (by simp [State.gone]),
    RecordRemoved.of_nego (by rw [hg]; rfl) (by rw [hg]; rfl), ?_, by rw [hg], by rw [hg]; rfl⟩
  simpa [State.gone, State.removeOrder] using hsteer

theorem State.gone_others (i : Fin 64) (r : Radio) (site : Byte) (o : Departed) (s : State) :
    s.gone i r site o =
      { s with
        roster := (s.gone i r site o).roster, hearing := (s.gone i r site o).hearing, nego := (s.gone i r site o).nego
        steer := (s.gone i r site o).steer } := by
  apply State.eq_of_blocks <;> simp [State.gone]

/-- No entry becomes ask-ready by the removal of one. -/
theorem State.gone_noneAskReady {s : State} {i : Fin 64} {e : RosterEntry} (he : s.roster.entries[i] = some e) (site : Byte)
    (o : Departed) (h : s.noneAskReady = true) : (s.gone i e.radio site o).noneAskReady = true := by
  obtain ⟨hremoved, -⟩ := State.gone_spec he site o
  rw [State.noneAskReady_iff] at h ⊢
  intro j x hx
  by_cases hj : j = i
  · subst hj; rw [hremoved.position] at hx; cases hx
  · rw [hremoved.others j hj] at hx; exact h j x hx

theorem HearingsStand.gone (i : Fin 64) (r : Radio) (site : Byte) (o : Departed) (s : State) :
    HearingsStand s (s.gone i r site o) :=
  (HearingsStand.removeEntry i s).then (by simp [State.gone]) (by simp [State.gone]) (by simp [State.gone])
    (by simp [State.gone])

/-! ### A matching TAKE accepted (R54, R117) -/

/-- A departure record made LEAVING, with its leave deadline. -/
def Departure.leavingAt (deadline : Time) (d : Departure) : Departure := { d with phase := .leaving, deadline := deadline }

/-- Record and entry made LEAVING and the MOVE offered, before a leave deadline that is now is reached. -/
def State.takeAccepted (p : Fin 4) (d : Departure) (ticks : Nat) (s : State) : State :=
  ((s.withNego
      { s.nego with departures := s.nego.departures.set p (some (d.leavingAt (s.due ticks))) }).updateEntry d.rosterIndex
    RosterEntry.toLeaving).offerMove d.radio d.target

theorem State.acceptTake_eq (p : Fin 4) (d : Departure) (h : Nat) (s : State) :
    s.acceptTake p d h =
      if (h + s.par .leaveMargin) * 10 = 0 then
        (s.takeAccepted p d ((h + s.par .leaveMargin) * 10)).leaveEnds
          (d.leavingAt (s.due ((h + s.par .leaveMargin) * 10)))
      else s.takeAccepted p d ((h + s.par .leaveMargin) * 10) := rfl

theorem State.takeAccepted_entries (p : Fin 4) (d : Departure) (ticks : Nat) (s : State) :
    (s.takeAccepted p d ticks).roster.entries = updateAt s.roster.entries d.rosterIndex RosterEntry.toLeaving := by
  unfold State.takeAccepted
  rw [State.offerMove_roster]
  rfl

theorem State.takeAccepted_nego (p : Fin 4) (d : Departure) (ticks : Nat) (s : State) :
    (s.takeAccepted p d ticks).nego =
      { s.nego with departures := s.nego.departures.set p (some (d.leavingAt (s.due ticks))) } := by
  simp [State.takeAccepted]

theorem HearingsStand.takeAccepted (p : Fin 4) (d : Departure) (ticks : Nat) (s : State) :
    HearingsStand s (s.takeAccepted p d ticks) := by
  refine .of_entries (fun j e he hne => ?_) ?_ ?_ ?_
  · rw [State.takeAccepted_entries, getElem_updateAt]
    split
    · next hj => subst hj; exact ⟨e.toLeaving, by rw [he]; rfl, rfl, by simp [RosterEntry.toLeaving]⟩
    · exact ⟨e, he, rfl, hne⟩
  all_goals simp [State.takeAccepted]

end Sys2Proof.Machine

/-! ## Roster, departures and hearings fitted together under every command -/

namespace Sys2Proof.Machine

/-! ### Changes that keep the two laws -/

/-- From `s` to `t` the law of departures is kept, and the law of hearings. -/
structure KeepsFitted (s t : State) : Prop where
  departures : DepartureLaw s → DepartureLaw t
  hearings : HearingLaw s → HearingLaw t

theorem KeepsFitted.refl (s : State) : KeepsFitted s s := ⟨id, id⟩

theorem KeepsFitted.trans {s t u : State} (h : KeepsFitted s t) (k : KeepsFitted t u) : KeepsFitted s u :=
  ⟨k.departures ∘ h.departures, k.hearings ∘ h.hearings⟩

/-- Where the hearing entries stand, the law of departures alone is to be shown. -/
theorem HearingsStand.keeps {s t : State} (h : HearingsStand s t) (hd : DepartureLaw s → DepartureLaw t) :
    KeepsFitted s t :=
  ⟨hd, fun hs => hs.stands h⟩

/-- Entries changed in place, radio and state staying. -/
theorem KeepsFitted.kept {s t : State} (g : Fin 64 → RosterEntry → RosterEntry)
    (hg : ∀ (i : Fin 64) e, s.roster.entries[i] = some e → EntryKept e (g i e))
    (ht : ∀ i : Fin 64, t.roster.entries[i] = s.roster.entries[i].map (g i))
    (hd : t.nego.departures = s.nego.departures := by simp) (hh : t.hearing = s.hearing := by simp)
    (hreset : t.resetHeld = s.resetHeld := by simp) (hloaded : t.loaded = s.loaded := by simp) : KeepsFitted s t := by
  refine (HearingsStand.of_entries (fun i e he hne => ?_) hh hreset hloaded).keeps fun h => h.kept g hg ht hd
  have hkept := hg i e he
  exact ⟨g i e, by rw [ht, he]; rfl, hkept.radio, by rw [hkept.state]; exact hne⟩

/-- Where roster, departure list and hearing table stay, the laws are kept. -/
theorem KeepsFitted.of_blocks {s t : State} (hr : t.roster.entries = s.roster.entries := by simp)
    (hd : t.nego.departures = s.nego.departures := by simp) (hh : t.hearing = s.hearing := by simp)
    (hreset : t.resetHeld = s.resetHeld := by simp) (hloaded : t.loaded = s.loaded := by simp) : KeepsFitted s t :=
  .kept (fun _ => id) (fun _ e _ => .refl e) (fun i => by rw [hr, Option.map_id_fun, id_eq]) hd hh hreset hloaded

theorem KeepsFitted.then {s t u : State} (h : KeepsFitted s t) (hr : u.roster.entries = t.roster.entries := by simp)
    (hd : u.nego.departures = t.nego.departures := by simp) (hh : u.hearing = t.hearing := by simp)
    (hreset : u.resetHeld = t.resetHeld := by simp) (hloaded : u.loaded = t.loaded := by simp) : KeepsFitted s u :=
  h.trans (.of_blocks hr hd hh hreset hloaded)

theorem KeepsFitted.updateEntry (i : Fin 64) (f : RosterEntry → RosterEntry) (s : State)
    (hf : ∀ e, s.roster.entries[i] = some e → EntryKept e (f e)) : KeepsFitted s (s.updateEntry i f) := by
  refine .kept (fun j => if j = i then f else id) (fun j e he => ?_) fun j => ?_
  · split
    · next hj => subst hj; exact hf e he
    · exact .refl e
  · rw [State.updateEntry_at]
    split
    · next hj => subst hj; rfl
    · rw [Option.map_id_fun, id_eq]

theorem KeepsFitted.evalAt (i : Fin 64) (s : State) : KeepsFitted s (s.evalAt i) :=
  .updateEntry i _ s fun e _ => .evaluated s e

/-- An entry changed in place, then evaluated. -/
theorem KeepsFitted.updateEntry_eval (i : Fin 64) (f : RosterEntry → RosterEntry) (s : State)
    (hf : ∀ e, s.roster.entries[i] = some e → EntryKept e (f e)) : KeepsFitted s ((s.updateEntry i f).evalAt i) :=
  (KeepsFitted.updateEntry i f s hf).trans (.evalAt i _)

theorem KeepsFitted.evalRadios (p : Radio → Bool) (s : State) : KeepsFitted s (s.evalRadios p) := by
  refine .kept (fun _ e => if p e.radio then s.evaluated e else e) (fun _ e _ => ?_) (State.evalRadios_at p s)
  split
  · exact .evaluated s e
  · exact .refl e

theorem KeepsFitted.evalAll (s : State) : KeepsFitted s s.evalAll :=
  .kept (fun _ => s.evaluated) (fun _ e _ => .evaluated s e) s.evalAll_at

/-! ### Departures -/

theorem KeepsFitted.openDeparture {s : State} {i : Fin 64} {e : RosterEntry} (n : Fin 8)
    (he : s.roster.entries[i] = some e) (hs : e.state = .homed) : KeepsFitted s (s.openDeparture i n) := by
  refine (HearingsStand.openDeparture i n s).keeps fun h => ?_
  rcases s.openDeparture_cases i n with hsame | ⟨x, p, hx, hp⟩
  · rw [hsame]; exact h
  obtain rfl := Option.some.inj (hx.symm.trans he)
  have hno := h.no_record he (.inl hs)
  have hentries := State.openDeparture_entries (n := n) he hp
  have hfree := lowestFree_some hp
  exact h.recorded (e' := x.toAsking) (p := p) (d := s.newDeparture i x n) he
    (fun j hj => by rw [hentries, getElem_updateAt_ne _ _ hj]) (by rw [hentries, getElem_updateAt_self, he]; rfl) rfl
    ((h.fields i x he).toAsking hs) rfl (by rw [State.openDeparture_nego he hp]) rfl rfl
    (fun y hy => by simp [hfree] at hy) fun q y hy hyr => absurd hyr (hno q y hy)

/-- The arbiter does nothing, or opens the departure of a HOMED entry (R106). -/
theorem State.arbiter_cases (s : State) :
    s.arbiter = s ∨ ∃ i n e, s.arbiter = s.openDeparture i n ∧ s.roster.entries[i] = some e ∧ e.state = .homed := by
  cases hchoice : s.arbiterChoice with
  | none => exact .inl (State.arbiter_of_no_choice hchoice)
  | some i =>
    rw [State.arbiterChoice_eq, Option.map_eq_some_iff] at hchoice
    obtain ⟨⟨k, x⟩, hpick, rfl⟩ := hchoice
    obtain ⟨e, n, he, hhomed, -, a, hbest, -⟩ := State.arbiterScore_eq_some.mp (pickGreatest_some hpick).1
    exact .inr ⟨k, n, e, State.arbiter_of_choice (by rw [State.arbiterChoice_eq, hpick]; rfl) he hbest, he, hhomed⟩

theorem KeepsFitted.arbiter (s : State) : KeepsFitted s s.arbiter := by
  rcases s.arbiter_cases with hsame | ⟨i, n, e, hopen, he, hhomed⟩
  · rw [hsame]; exact .refl s
  · rw [hopen]; exact .openDeparture n he hhomed

theorem KeepsFitted.revert {s : State} {p : Fin 4} {d : Departure} (hd : s.nego.departures[p] = some d) :
    KeepsFitted s (s.revert d) := by
  refine (HearingsStand.revert d s).keeps fun h => ?_
  obtain ⟨e, he, her, -, hfields, hne, -⟩ := h.entry_of_record hd
  obtain ⟨hentry, hrecord, -⟩ := State.revert_spec he
  exact h.homed he hentry.others hentry.entry_eq (State.evaluated_radio ..) (State.evaluated_state ..)
    ((hfields.backHome hne s d.target).evaluated _) (her ▸ hrecord.records) (her ▸ hrecord.no_record)

/-- A return to HOMED, counted, with the arbiter taken. -/
theorem KeepsFitted.revert_arbiter {s : State} {p : Fin 4} {d : Departure} (b : Bool) (c : Counter)
    (hd : s.nego.departures[p] = some d) : KeepsFitted s ((s.revert d).bumpIf b c).arbiter :=
  (KeepsFitted.revert hd).then.trans (.arbiter _)

theorem KeepsFitted.depart {s : State} {i : Fin 64} {r : Radio} (site : Byte) (o : Departed)
    (hentry : DepartureLaw s → ∃ e, s.roster.entries[i] = some e ∧ e.radio = r) : KeepsFitted s (s.depart i r site o) := by
  have hgone : KeepsFitted s (s.gone i r site o) := by
    refine (HearingsStand.gone i r site o s).keeps fun h => ?_
    obtain ⟨e, he, rfl⟩ := hentry h
    obtain ⟨hremoved, hrecord, -⟩ := State.gone_spec he site o
    exact h.removed he hremoved hrecord
  rw [State.depart_eq]
  split
  · exact hgone.trans (.arbiter _)
  · exact hgone

theorem KeepsFitted.leaveEnds {s : State} {p : Fin 4} {d : Departure} (hd : s.nego.departures[p] = some d) :
    KeepsFitted s (s.leaveEnds d) := by
  unfold State.leaveEnds
  split
  · exact .revert_arbiter true .steerFailed hd
  · refine .depart _ _ fun h => ?_
    obtain ⟨e, he, her, -⟩ := h.entry_of_record hd
    exact ⟨e, he, her⟩

/-- A record changed in neither radio, index nor phase keeps its entry (R115). -/
theorem KeepsFitted.setRecord {s t : State} {p : Fin 4} {d d' : Departure} (hd : s.nego.departures[p] = some d)
    (hradio : d'.radio = d.radio) (hindex : d'.rosterIndex = d.rosterIndex) (hphase : d'.phase = d.phase)
    (ht : t.nego.departures = s.nego.departures.set p (some d')) (hr : t.roster.entries = s.roster.entries := by simp)
    (hh : t.hearing = s.hearing := by simp) (hreset : t.resetHeld = s.resetHeld := by simp)
    (hloaded : t.loaded = s.loaded := by simp) : KeepsFitted s t := by
  refine (HearingsStand.of_blocks hr hh hreset hloaded).keeps fun h => ?_
  obtain ⟨e, he, her, hes, hfields, -⟩ := h.entry_of_record hd
  exact h.recorded he (fun j _ => by rw [hr]) (by rw [hr]; exact he) rfl hfields (by rw [hphase]; exact hes) ht
    (hradio.trans her.symm) hindex (fun x hx => by rw [Option.some.inj (hx.symm.trans hd), her])
    fun q x hx hxr => h.oneRecord q p x d hx hd (hxr.trans her)

theorem KeepsFitted.resendAsk {s : State} {p : Fin 4} {d : Departure} (hd : s.nego.departures[p] = some d) :
    KeepsFitted s (s.resendAsk p d) :=
  .setRecord (d' := { d with attempt := d.attempt + 1, deadline := s.due (s.par .askTimeout * 10) }) hd rfl rfl rfl
    (by simp [State.resendAsk])

/-- Record and entry of a matching TAKE made LEAVING together (R54). -/
theorem KeepsFitted.takeAccepted {s : State} {p : Fin 4} {d : Departure} (ticks : Nat)
    (hd : s.nego.departures[p] = some d) (hphase : d.phase = .asking) : KeepsFitted s (s.takeAccepted p d ticks) := by
  refine (HearingsStand.takeAccepted p d ticks s).keeps fun h => ?_
  obtain ⟨e, he, her, hes, hfields, -⟩ := h.entry_of_record hd
  have hasking : e.state = .asking := by rw [hes, hphase]; rfl
  have hentries := State.takeAccepted_entries p d ticks s
  exact h.recorded (e' := e.toLeaving) (d := d.leavingAt (s.due ticks)) he
    (fun j hj => by rw [hentries, getElem_updateAt_ne _ _ hj]) (by rw [hentries, getElem_updateAt_self, he]; rfl) rfl
    (hfields.toLeaving hasking) rfl (by rw [State.takeAccepted_nego]) her.symm rfl
    (fun x hx => by rw [Option.some.inj (hx.symm.trans hd), her]) fun q x hx hxr => h.oneRecord q p x d hx hd (hxr.trans her)

theorem KeepsFitted.acceptTake {s : State} {p : Fin 4} {d : Departure} (h : Nat) (hd : s.nego.departures[p] = some d)
    (hphase : d.phase = .asking) : KeepsFitted s (s.acceptTake p d h) := by
  have htaken := KeepsFitted.takeAccepted ((h + s.par .leaveMargin) * 10) hd hphase
  rw [State.acceptTake_eq]
  split
  · exact htaken.trans (.leaveEnds (p := p) (by rw [State.takeAccepted_nego]; exact getElem_setSlot_self _ _ _))
  · exact htaken

theorem KeepsFitted.dwellExpires {s : State} {i : Fin 64} {e : RosterEntry} (he : s.roster.entries[i] = some e)
    (hhomed : e.state = .homed) : KeepsFitted s (s.dwellExpires i e) := by
  have hundwelt : KeepsFitted s (s.updateEntry i fun e => { e with dwell := none }) :=
    .updateEntry i _ s fun x _ => ⟨rfl, rfl, fun h =>
      ⟨h.lost, h.reservation, h.arrival, h.away, h.exclusion, nofun, fun hr => ⟨(h.askReady hr).1, rfl⟩, h.heard⟩⟩
  have hentry : (s.updateEntry i fun e => { e with dwell := none }).roster.entries[i] = some { e with dwell := none } := by
    rw [State.updateEntry_at, if_pos rfl, he]; rfl
  unfold State.dwellExpires
  dsimp only
  split
  · split
    · split
      · exact hundwelt.trans (.openDeparture _ hentry hhomed)
      · exact hundwelt
    · refine hundwelt.trans (.updateEntry i _ _ fun x hx => ?_)
      obtain rfl := Option.some.inj (hx.symm.trans hentry)
      exact ⟨rfl, rfl, fun h =>
        ⟨h.lost, h.reservation, h.arrival, h.away, h.exclusion, h.dwell, fun _ => ⟨hhomed, rfl⟩, h.heard⟩⟩
  · exact hundwelt

/-! ### Entries removed and created -/

/-- A HOMED or EXPECTED entry removed (R46, R51, R57). -/
theorem KeepsFitted.removeEntry {s : State} {i : Fin 64} {e : RosterEntry} (he : s.roster.entries[i] = some e)
    (hs : e.state = .homed ∨ e.state = .expected) : KeepsFitted s (s.removeEntry i) :=
  (HearingsStand.removeEntry i s).keeps fun h =>
    h.removed_simple he hs (State.removeEntry_removed he) (by rw [(State.removeEntry_simple he hs).1])

theorem State.createEntry_entries (i : Fin 64) (e : RosterEntry) (s : State) :
    (s.createEntry i e).roster.entries = s.roster.entries.set i (some e) := by
  simp [State.createEntry]

/-- An entry created at a free index for a radio that has none (R36, R49). -/
theorem KeepsFitted.createEntry {s : State} {i : Fin 64} {e : RosterEntry} (hfree : s.roster.entries[i] = none)
    (hr : s.rosterIndex e.radio = none) (hf : FieldLaw e) (hs : e.state = .homed ∨ e.state = .expected) :
    KeepsFitted s (s.createEntry i e) := by
  have hentries := s.createEntry_entries i e
  refine (HearingsStand.of_entries fun j x hx hne => ⟨x, ?_, rfl, hne⟩).keeps fun h =>
    h.join hfree hr hentries (by simp) hf hs
  have hj : j ≠ i := fun hj => by subst hj; simp [hfree] at hx
  rw [hentries, getElem_setSlot_ne _ _ hj]
  exact hx

theorem KeepsFitted.home {s : State} {i : Fin 64} {o : Observation} (hfree : s.roster.entries[i] = none)
    (hr : s.rosterIndex o.radio = none) : KeepsFitted s (s.home i o) :=
  (KeepsFitted.createEntry (e := s.newHomed o) hfree hr (.newHomed s o) (.inl rfl)).then.trans (.evalAt _ _)

theorem KeepsFitted.homeOrRefuse {s : State} {o : Observation} (hr : s.rosterIndex o.radio = none) :
    KeepsFitted s (s.homeOrRefuse o) := by
  unfold State.homeOrRefuse
  split
  · exact .refl s
  · split
    · split
      · next i hi => exact .home (lowestFree_some hi) hr
      · exact .of_blocks
    · exact .of_blocks

/-- The arrival of the handset of a reservation (R43). -/
theorem KeepsFitted.arrive {s : State} {i : Fin 64} {e : RosterEntry} (he : s.roster.entries[i] = some e)
    (hs : e.state = .expected) (o : Observation) : KeepsFitted s (s.arrive i e o) := by
  have harrived : KeepsFitted s (s.updateEntry i (s.arrived o)) := by
    refine (HearingsStand.updateEntry i (s.arrived o) s (fun _ => rfl) fun _ _ => by simp [State.arrived]).keeps fun h => ?_
    refine h.homed he (e' := s.arrived o e) (fun j hj => by rw [State.updateEntry_at, if_neg hj])
      (by rw [State.updateEntry_at, if_pos rfl, he]; rfl) rfl rfl ?_ (fun _ _ _ => by simp) (h.no_record he (.inr hs))
    refine .of_homed ?_ ?_ ?_ ?_ ?_ ?_ <;> simp [State.arrived]
  exact harrived.then.trans (.evalAt _ _)

/-! ### Observations (R16) -/

theorem State.departure_of_index {s : State} {r : Radio} {d : Departure}
    (h : ((s.departureIndex r).bind fun p => s.nego.departures[p]) = some d) :
    ∃ p : Fin 4, s.departureIndex r = some p ∧ s.nego.departures[p] = some d :=
  Option.bind_eq_some_iff.mp h

theorem KeepsFitted.hearLeaving {s : State} {i : Fin 64} {e : RosterEntry} (he : s.roster.entries[i] = some e)
    (hs : e.state = .leaving) (r : Radio) (o : Observation) : KeepsFitted s (s.hearLeaving i r o) := by
  have hrefreshed : KeepsFitted s (s.updateEntry i (s.refreshed o)) := .updateEntry i _ s fun x hx => by
    rw [Option.some.inj (hx.symm.trans he)]
    exact .refreshed s o (by simp [hs])
  unfold State.hearLeaving
  dsimp only
  split
  · split
    · next d hd =>
      obtain ⟨p, -, hp⟩ := State.departure_of_index hd
      exact hrefreshed.trans (.revert_arbiter _ .steerFailed (by rw [State.updateEntry_nego]; exact hp))
    · exact hrefreshed
  · refine hrefreshed.trans (.updateEntry i _ _ fun x hx => ?_)
    rw [State.updateEntry_at, if_pos rfl, he] at hx
    obtain rfl := Option.some.inj hx
    exact .of_fields rfl rfl rfl rfl rfl .inl id rfl rfl fun _ => .inr hs

theorem KeepsFitted.hearRostered {s : State} {i : Fin 64} {e : RosterEntry} (he : s.roster.entries[i] = some e)
    (o : Observation) : KeepsFitted s (s.hearRostered i e o) := by
  have hrefreshed : e.state ≠ .expected → KeepsFitted s (s.updateEntry i (s.refreshed o)) := fun hs =>
    .updateEntry i _ s fun x hx => by
      rw [Option.some.inj (hx.symm.trans he)]
      exact .refreshed s o hs
  unfold State.hearRostered
  split
  · next hs => exact (hrefreshed (by simp [hs])).trans (.evalAt _ _)
  · next hs => exact hrefreshed (by simp [hs])
  · next hs => exact .hearLeaving he hs _ o
  · next hs => exact .arrive he hs o

theorem KeepsFitted.deliver (o : Observation) (s : State) : KeepsFitted s (s.deliver o) := by
  unfold State.deliver
  split
  · next hr =>
    split
    · exact .of_blocks
    · exact .homeOrRefuse hr
  · split
    · exact .updateEntry _ _ s fun e _ => .sighted s o e
    · split
      · next he => exact .hearRostered he o
      · exact .refl s

theorem KeepsFitted.takeSlot (frame : List Byte) (s : State) (p : Fin 8) : KeepsFitted s (s.takeSlot frame p) := by
  unfold State.takeSlot State.admitThenDeliver
  dsimp only
  split
  · split
    · exact .trans .of_blocks (.deliver _ _)
    · exact .of_blocks
  · exact .of_blocks

theorem KeepsFitted.takeFrame (frame : List Byte) (s : State) : KeepsFitted s (s.takeFrame frame) := by
  have hslots : ∀ u, KeepsFitted s u → KeepsFitted s (u.takeSlots frame) := fun u hu =>
    State.takeSlots_induct (P := KeepsFitted s) frame (fun t p h => h.trans (.takeSlot frame t p)) u hu
  unfold State.takeFrame
  dsimp only
  split
  · exact hslots _ .of_blocks
  · exact hslots _ .of_blocks
  · exact .refl s

/-! ### Frames from neighbours -/

theorem State.matchingRecord_some {source sequence : Byte} {r : Radio} {s : State} {p : Fin 4} {d : Departure}
    (h : s.matchingRecord source r sequence = some p) (hd : s.nego.departures[p] = some d) :
    d.radio = r ∧ d.phase = .asking ∧ d.sequence = sequence ∧ s.hearing.neighbours[d.target].site = source := by
  obtain ⟨x, hx, hp⟩ := findEntry_some h
  obtain rfl := Option.some.inj (hx.symm.trans hd)
  simpa [and_assoc] using hp

theorem KeepsFitted.receiveTake (f : LinkFrame) (s : State) : KeepsFitted s (s.receiveTake f) := by
  unfold State.receiveTake
  split
  · next hp =>
    split
    · next hd => exact .acceptTake _ hd (State.matchingRecord_some hp hd).2.1
    · exact .refl s
  · exact .refl s

theorem KeepsFitted.receiveDecline (f : LinkFrame) (s : State) : KeepsFitted s (s.receiveDecline f) := by
  unfold State.receiveDecline
  split
  · split
    · next hd => exact .revert_arbiter true .asksDeclined hd
    · exact .refl s
  · exact .refl s

/-- A reservation is made at a free index of the roster (R49). -/
theorem State.askAnswer_free {source sequence : Byte} {r : Radio} {emergency : Bool} {s : State} {i : Fin 64}
    {stray : StrayEntry} (h : s.askAnswer source r sequence emergency = .accept i stray) : s.roster.entries[i] = none := by
  unfold State.askAnswer at h
  (repeat' split at h) <;> cases h
  exact lowestFree_some ‹lowestFree s.roster.entries = some i›

theorem KeepsFitted.receiveAsk (f : LinkFrame) (s : State) : KeepsFitted s (s.receiveAsk f) := by
  unfold State.receiveAsk
  dsimp only
  split
  · exact .refl s
  · exact .of_blocks
  · next i _ =>
    exact (KeepsFitted.updateEntry i s.renewed s fun e _ =>
      .of_fields rfl rfl rfl (by simp [State.renewed]) rfl .inl id rfl rfl .inl).then
  · next i stray h =>
    exact (KeepsFitted.createEntry
      (e := s.newExpected (radioAt f.body 0) stray.f f.source (byteAt f.body 3)) (State.askAnswer_free h)
      (State.askAnswer_accept h).1 (.newExpected ..) (.inr rfl)).then

theorem KeepsFitted.conflict {s : State} {i : Fin 64} {e : RosterEntry} (he : s.roster.entries[i] = some e)
    (source : Byte) (c : Option (BitVec 4)) : KeepsFitted s (s.conflict i e source c) := by
  unfold State.conflict
  split
  · exact .of_blocks
  · exact .depart _ _ fun _ => ⟨e, he, rfl⟩

/-- The index that the search of the roster gives holds an entry of the radio. -/
theorem State.entry_of_rosterIndex {s : State} {r : Radio} {i : Fin 64} (h : s.rosterIndex r = some i) :
    ∃ e, s.roster.entries[i] = some e ∧ e.radio = r := by
  obtain ⟨e, he, hr⟩ := findEntry_some h
  exact ⟨e, he, by simpa using hr⟩

theorem KeepsFitted.receiveHomed (f : LinkFrame) (s : State) : KeepsFitted s (s.receiveHomed f) := by
  unfold State.receiveHomed
  dsimp only
  split
  · exact .refl s
  next i hi =>
  split
  · exact .refl s
  next e he =>
  split
  · next hs => exact .removeEntry he (.inr hs)
  · exact .conflict he _ _
  · exact .conflict he _ _
  · split
    · exact (KeepsFitted.of_blocks (t := s.bump .handoversConfirmed)).trans
        (.depart _ _ fun _ => by rw [State.bump_roster]; exact State.entry_of_rosterIndex hi)
    · exact .conflict he _ _

theorem KeepsFitted.negotiate (f : LinkFrame) (s : State) : KeepsFitted s (s.negotiate f) := by
  unfold State.negotiate
  split
  · exact .refl s
  · exact .receiveAsk f s
  · exact .receiveTake f s
  · exact .receiveDecline f s
  · exact .receiveHomed f s

/-! ### Liveness and HEARD frames (R77, R81) -/

theorem KeepsFitted.hearFrom (n : Fin 8) (s : State) : KeepsFitted s (s.hearFrom n) := by
  have hlive : ∀ m : Fin 8, s.hearing.neighbours[m].state = .live → (s.hearFrom n).hearing.neighbours[m].state = .live := by
    intro m hm
    simp only [State.hearFrom, State.withHearing_hearing, Hearing.makeLive, getElem_setSlot]
    split
    · rfl
    · exact hm
  have hstand : HearingsStand s (s.hearFrom n) :=
    ⟨rfl, rfl, fun _ _ he => he, fun _ e _ hl => hlive e.neighbour hl, fun _ _ _ hr => hr⟩
  exact hstand.keeps fun h => ⟨h.roster, h.fields, h.hasEntry, h.hasRecord, h.oneRecord⟩

/-- A pair of a LIVE neighbour, for a radio that stands in the roster, may be stored: its place is that of its own entry,
where it has one (R80 to R83). -/
theorem HearingLaw.storePair {s : State} (h : HearingLaw s) (hloaded : s.loaded = true) {n : Fin 8}
    (hlive : s.hearing.neighbours[n].state = .live) (now : Time) (age : Nat) {pair : Radio × Nat}
    (hr : s.Rosters pair.1) : HearingLaw (s.withHearing (s.hearing.storePair now age n pair).1) := by
  obtain ⟨j, hplace, hstore⟩ := s.hearing.storePair_spec now age n pair
  rw [hstore]
  have hown : ∀ (i : Fin 128) e, s.hearing.table[i] = some e → e.neighbour = n → e.radio = pair.1 → i = j :=
    fun i e he hn hp => by
      obtain ⟨-, x, hx, hxn, hxr⟩ := hplace.own i e he hn hp
      exact h.onePerPair i j e x he hx (hn.trans hxn.symm) (hp.trans hxr.symm)
  refine ⟨h.reset, fun hl => ?_, fun i e he => ?_, fun i e he => ?_, fun i k e f he hf hn hp => ?_⟩
  · rw [State.withHearing_loaded, hloaded] at hl; cases hl
  · rcases eq_or_eq_some_of_set he with rfl | he
    · exact hlive
    · exact h.live i e he
  · rcases eq_or_eq_some_of_set he with rfl | he
    · exact hr
    · exact h.rostered i e he
  · simp only [State.withHearing_hearing, getElem_setSlot] at he hf
    split at he <;> split at hf
    · next hi hk => rw [hi, hk]
    · next hi _ => cases he; rw [hi]; exact (hown k f hf hn.symm hp.symm).symm
    · next hk => cases hf; rw [hk]; exact hown i e he hn hp
    · exact h.onePerPair i k e f he hf hn hp

/-- The pairs of a frame, for radios that stand in the roster (R81). -/
theorem HearingLaw.storePairs {s : State} (h : HearingLaw s) (hloaded : s.loaded = true) {n : Fin 8}
    (hlive : s.hearing.neighbours[n].state = .live) (now : Time) (age : Nat) {kept : Radio → Bool}
    (hkept : ∀ r, kept r = true → s.Rosters r) (pairs : List (Radio × Nat)) :
    HearingLaw (s.withHearing (s.hearing.storePairs now age n kept pairs).1) := by
  unfold Hearing.storePairs
  generalize ([] : List Radio) = changed
  induction pairs generalizing s changed with
  | nil => exact h
  | cons pair pairs ih =>
    rw [List.foldl_cons]
    split
    · next hpair =>
      obtain ⟨j, -, hstore⟩ := s.hearing.storePair_spec now age n pair
      have hlive' : (s.hearing.storePair now age n pair).1.neighbours[n].state = .live := by rw [hstore]; exact hlive
      exact ih (h.storePair hloaded hlive now age (hkept _ hpair)) hloaded hlive' hkept _
    · exact ih h hloaded hlive hkept _

theorem State.rosters_of_keepsReports {s : State} {r : Radio} (h : s.keepsReports r = true) : s.Rosters r := by
  obtain ⟨e, he, hs⟩ := (s.keepsReports_iff r).mp h
  obtain ⟨i, hi, he⟩ := Option.bind_eq_some_iff.mp he
  obtain ⟨x, hx, hxr⟩ := State.entry_of_rosterIndex hi
  obtain rfl := Option.some.inj (hx.symm.trans he)
  exact ⟨i, x, hx, hxr, hs⟩

theorem KeepsFitted.receiveHeard {s : State} {n : Fin 8} (hloaded : s.loaded = true)
    (hlive : s.hearing.neighbours[n].state = .live) (all : Bool) (body : List Byte) :
    KeepsFitted s (s.receiveHeard n all body) := by
  have hstored : KeepsFitted s (s.withHearing
      (s.hearing.storePairs s.now (s.par .hearingMaxAge * 100) n s.keepsReports (heardPairs body)).1) :=
    ⟨fun h => ⟨h.roster, h.fields, h.hasEntry, h.hasRecord, h.oneRecord⟩,
      fun h => h.storePairs hloaded hlive _ _ (fun _ => State.rosters_of_keepsReports) _⟩
  unfold State.receiveHeard
  exact hstored.trans (.evalRadios _ _)

theorem KeepsFitted.dispatchNeighbour {s : State} (hloaded : s.loaded = true) (n : Fin 8) (f : LinkFrame) :
    KeepsFitted s (s.dispatchNeighbour n f) := by
  have hheard := KeepsFitted.hearFrom n s
  have heval : ∀ b : Bool, KeepsFitted s (if b then (s.hearFrom n).evalAll else s.hearFrom n) := by
    intro b
    cases b
    · exact hheard
    · exact hheard.trans (.evalAll _)
  unfold State.dispatchNeighbour
  dsimp only
  split
  · refine hheard.trans (.receiveHeard (by rw [State.hearFrom_loaded]; exact hloaded) ?_ _ _)
    simp [State.hearFrom, Hearing.makeLive]
  · split
    · exact (heval _).trans (.negotiate f _)
    · exact heval _

theorem KeepsFitted.dispatchFrame {s : State} (hloaded : s.loaded = true) (f : LinkFrame) (rest : List LinkFrame) :
    KeepsFitted s (s.dispatchFrame f rest) := by
  have htaken : KeepsFitted s (s.withLink { s.link with rx := rest }) := .of_blocks
  refine htaken.trans ?_
  unfold State.dispatchFrame
  dsimp only
  split
  · exact .dispatchNeighbour (by rw [State.withLink_loaded]; exact hloaded) _ f
  · unfold State.dispatchStranger
    split
    · exact .refl _
    · split
      · exact .of_blocks
      · exact .negotiate f _

end Sys2Proof.Machine

/-! ## The laws of departures and hearings under every command -/

namespace Sys2Proof.Machine

/-! ### Before a load has succeeded, and after a flush (R90, R135, R171) -/

/-- Before a load has succeeded the hearing table holds nothing, so loader and neighbour records may change. -/
theorem KeepsFitted.unloaded {s t : State} (hs : s.loaded = false) (hr : t.roster.entries = s.roster.entries := by rfl)
    (hn : t.nego.departures = s.nego.departures := by rfl) (hh : t.hearing.table = s.hearing.table := by rfl)
    (hreset : ResetLaw s → ResetLaw t) : KeepsFitted s t where
  departures := fun h => h.kept (fun _ => id) (fun _ e _ => .refl e) (fun i => by rw [hr, Option.map_id_fun, id_eq]) hn
  hearings := fun h => .of_empty (hreset h.reset) fun j => by rw [hh]; exact h.unloaded hs j

theorem State.loading_unloaded {s : State} (h : s.loading = true) : s.loaded = false := by
  have hop : s.loader.opState = .loading := by simp_all [State.loading]
  simp [State.loaded, hop]

/-- Tables that hold nothing are lawful. -/
theorem KeepsFitted.of_empty {s t : State} (hr : ∀ i : Fin 64, t.roster.entries[i] = none)
    (hd : ∀ p : Fin 4, t.nego.departures[p] = none) (hh : ∀ j : Fin 128, t.hearing.table[j] = none)
    (hreset : ResetLaw s → ResetLaw t) : KeepsFitted s t where
  departures := fun _ =>
    { roster := fun i _ e _ h => by rw [hr i] at h; cases h
      fields := fun i e h => by rw [hr i] at h; cases h
      hasEntry := fun p d h => by rw [hd p] at h; cases h
      hasRecord := fun i e h => by rw [hr i] at h; cases h
      oneRecord := fun p _ d _ h => by rw [hd p] at h; cases h }
  hearings := fun h => .of_empty (hreset h.reset) hh

theorem KeepsFitted.beginFlush {s : State} (hrunning : s.running = true) : KeepsFitted s s.beginFlush := by
  have hloaded : s.loaded = true := by simp_all [State.running, State.loaded]
  refine .of_empty (fun i => ?_) (fun p => ?_) (fun j => ?_) fun h hheld => absurd (h hheld) (by simp [hloaded])
  all_goals simp [State.beginFlush]

/-! ### Shapes of a meaning -/

theorem KeepsFitted.of_serve {f : State → State} {s t : State} (h : serve f s = .next t)
    (hf : s.resetHeld = false → KeepsFitted s (f s)) : KeepsFitted s t := by
  rcases serve_eq_next h with ⟨-, rfl⟩ | ⟨hlow, rfl⟩
  · exact .refl _
  · exact hf hlow

theorem KeepsFitted.of_serveIf {b : Bool} {f : State → State} {s t : State} (h : serveIf b f s = .next t)
    (hf : s.resetHeld = false → KeepsFitted s (f s)) : KeepsFitted s t := by
  obtain ⟨rfl, -⟩ := serveIf_eq_next h
  exact .of_serve h hf

theorem KeepsFitted.onlyIf {p : Prop} [Decidable p] {s t : State} (h : p → KeepsFitted s t) :
    KeepsFitted s (if p then t else s) := by
  split
  · next hp => exact h hp
  · exact .refl s

theorem KeepsFitted.whenDue {i : Fin 64} {due : RosterEntry → Bool} {f : RosterEntry → State → State} {s : State}
    (hf : ∀ e, s.roster.entries[i] = some e → due e = true → KeepsFitted s (f e s)) : KeepsFitted s (s.whenDue i due f) := by
  unfold State.whenDue
  split
  · next e he => exact .onlyIf fun hdue => hf e he hdue
  · exact .refl s

/-- A deadline of a field that no state binds: the field is cleared and the entry evaluated. -/
theorem KeepsFitted.fieldDeadline {i : Fin 64} {due : RosterEntry → Bool} {g : RosterEntry → RosterEntry} {s t : State}
    (h : serve (fun s => s.whenDue i due fun _ s => (s.updateEntry i g).evalAt i) s = .next t)
    (hg : ∀ e, EntryKept e (g e)) : KeepsFitted s t :=
  .of_serve h fun _ => .whenDue fun _ _ _ => .updateEntry_eval i g s fun e _ => hg e

theorem KeepsFitted.portCommand (c : PortCommand) (part : FramePart) (s : State)
    (heff : ∀ (shown : List Byte) (s : State), KeepsFitted s (c.effect shown s)) :
    KeepsFitted s (s.portCommand c part) := by
  refine State.portCommand_induct (P := KeepsFitted s) c part ?_ ?_ ?_ ?_ s (.refl s)
  · exact fun t f h => h.then
  · exact fun t m h => h.then
  · exact fun t h => h.then
  · exact fun shown t h => h.trans (heff shown t)

/-! ### Meanings that are more than one change under one condition -/

theorem KeepsFitted.resetRelease {s t : State} (h : execResetRelease s = .next t) : KeepsFitted s t := by
  cases h
  refine .onlyIf fun hheld => ⟨fun h => ⟨h.roster, h.fields, h.hasEntry, h.hasRecord, h.oneRecord⟩, fun h => ?_⟩
  exact (KeepsFitted.unloaded (h.reset hheld) (hreset := fun _ _ => rfl)).hearings h

theorem KeepsFitted.readComplete {pulses : Nat} {image : List Byte} {s t : State}
    (h : execReadComplete pulses image s = .next t) : KeepsFitted s t := by
  refine .of_serveIf h fun hlow => .onlyIf fun hload => ?_
  have hheld : ∀ u : State, u.resetHeld = s.resetHeld → ResetLaw s → ResetLaw u := fun u hu _ hh => by
    rw [hu, hlow] at hh; cases hh
  split
  · exact .unloaded (State.loading_unloaded hload) (hreset := hheld _ rfl)
  · exact .unloaded (State.loading_unloaded hload) (hreset := hheld _ rfl)

theorem KeepsFitted.failLoad {s : State} (hs : s.loaded = false) (bus : List BusOp) : KeepsFitted s (s.failLoad bus) :=
  .unloaded hs (hreset := fun _ _ => rfl)

theorem KeepsFitted.loadDeadline {progress : BusProgress} {held : Bool} {s t : State}
    (h : execLoadDeadline progress held s = .next t) : KeepsFitted s t := by
  refine .of_serveIf h fun _ => .onlyIf fun hload => ?_
  have hunloaded : s.loaded = false := by simp_all [State.loaded]
  exact .unloaded hunloaded (hreset := fun _ _ => rfl)

theorem KeepsFitted.tick {s t : State} (h : execTick s = .next t) : KeepsFitted s t := .of_serve h fun _ => .of_blocks

theorem KeepsFitted.reportFrameStart {s t : State} (h : execReportFrameStart s = .next t) : KeepsFitted s t :=
  .of_serve h fun _ => .of_blocks

theorem KeepsFitted.takenStrobe {s t : State} (h : execTakenStrobe s = .next t) : KeepsFitted s t :=
  .of_serve h fun _ => .of_blocks

theorem KeepsFitted.oldMark {stamp : StampName} {s t : State} (h : execOldMark stamp s = .next t) : KeepsFitted s t := by
  refine .of_serve h fun _ => ?_
  cases stamp <;> exact .of_blocks

theorem KeepsFitted.reportFrame {frame : List Byte} {s t : State} (h : execReportFrame frame s = .next t) :
    KeepsFitted s t := by
  have hended : KeepsFitted s (s.withIntake { s.intake with collecting := false }) := .of_blocks
  refine .of_serveIf h fun _ => .onlyIf fun _ => ?_
  split
  · exact hended.trans (.takeFrame frame _)
  · exact hended

theorem KeepsFitted.lostDeadline {i : Fin 64} {s t : State} (h : execLostDeadline i s = .next t) : KeepsFitted s t := by
  refine .of_serve h fun _ => .whenDue fun e he hdue => ?_
  have hhomed : e.state = .homed := by simp_all
  exact (KeepsFitted.removeEntry he (.inl hhomed)).then (hd := rfl)

theorem KeepsFitted.reservationDeadline {i : Fin 64} {s t : State} (h : execReservationDeadline i s = .next t) :
    KeepsFitted s t := by
  refine .of_serve h fun _ => .whenDue fun e he hdue => ?_
  have hexpected : e.state = .expected := by simp_all
  exact (KeepsFitted.removeEntry he (.inr hexpected)).then

theorem KeepsFitted.dwellExpiry {i : Fin 64} {s t : State} (h : execDwellExpiry i s = .next t) : KeepsFitted s t := by
  refine .of_serve h fun _ => .whenDue fun e he hdue => ?_
  have hhomed : e.state = .homed := by simp_all
  exact .dwellExpires he hhomed

theorem KeepsFitted.answerDeadline {p : Fin 4} {s t : State} (h : execAnswerDeadline p s = .next t) :
    KeepsFitted s t := by
  refine .of_serve h fun _ => ?_
  split
  · next hd =>
    refine .onlyIf fun _ => ?_
    split
    · exact .resendAsk hd
    · exact .revert_arbiter true .asksTimedOut hd
  · exact .refl s

theorem KeepsFitted.leaveDeadline {p : Fin 4} {s t : State} (h : execLeaveDeadline p s = .next t) : KeepsFitted s t := by
  refine .of_serve h fun _ => ?_
  split
  · next hd => exact .onlyIf fun _ => .leaveEnds hd
  · exact .refl s

/-- Hearing entries removed, the neighbour records of the rest staying LIVE (R78, R84). -/
theorem HearingsStand.of_hearing {s : State} {x : Hearing}
    (ht : ∀ (j : Fin 128) e, x.table[j] = some e → s.hearing.table[j] = some e
      ∧ (s.hearing.neighbours[e.neighbour].state = .live → x.neighbours[e.neighbour].state = .live)) :
    HearingsStand s (s.withHearing x) :=
  ⟨rfl, rfl, fun j e he => (ht j e he).1, fun j e he => (ht j e he).2, fun _ _ _ hr => hr⟩

theorem HearingsStand.keeps_withHearing {s : State} {x : Hearing} (h : HearingsStand s (s.withHearing x)) :
    KeepsFitted s (s.withHearing x) :=
  h.keeps fun h => ⟨h.roster, h.fields, h.hasEntry, h.hasRecord, h.oneRecord⟩

theorem KeepsFitted.silenceDeadline {n : Fin 8} {s t : State} (h : execSilenceDeadline n s = .next t) :
    KeepsFitted s t := by
  have hsilent : HearingsStand s (s.withHearing (s.hearing.makeSilent n)) := .of_hearing fun j e he => by
    obtain ⟨he, hne⟩ := eq_some_of_dropEntries he
    refine ⟨he, fun hlive => ?_⟩
    have hother : e.neighbour ≠ n := ne_of_beq_false hne
    simpa [Hearing.makeSilent, Hearing.pruneNeighbour, getElem_setSlot_ne _ _ hother] using hlive
  exact .of_serve h fun _ => .onlyIf fun _ => hsilent.keeps_withHearing.trans (.evalAll _)

theorem KeepsFitted.hearingExpiry {j : Fin 128} {s t : State} (h : execHearingExpiry j s = .next t) :
    KeepsFitted s t := by
  have hfreed : HearingsStand s (s.withHearing { s.hearing with table := s.hearing.table.set j none }) :=
    .of_hearing fun _ _ he => ⟨eq_some_of_set_none he, id⟩
  refine .of_serve h fun _ => ?_
  split
  · exact .onlyIf fun _ => hfreed.keeps_withHearing.trans (.evalRadios _ _)
  · exact .refl s

theorem KeepsFitted.idleGapDeadline {s t : State} (h : execIdleGapDeadline s = .next t) : KeepsFitted s t := by
  refine .of_serve h fun _ => ?_
  split
  · exact .onlyIf fun _ => .of_blocks
  · exact .refl s

theorem KeepsFitted.spacingEnd {s t : State} (h : execSpacingEnd s = .next t) : KeepsFitted s t := by
  refine .of_serve h fun _ => ?_
  split
  · exact .onlyIf fun _ => .of_blocks
  · exact .refl s

theorem KeepsFitted.carrierOnset {s t : State} (h : execCarrierOnset s = .next t) : KeepsFitted s t := by
  cases h
  split
  · exact .refl s
  split <;> exact .of_blocks

theorem KeepsFitted.carrierFall {bytes : List Byte} {s t : State} (h : execCarrierFall bytes s = .next t) :
    KeepsFitted s t := by
  cases h
  split
  · exact .refl s
  split
  · exact .of_blocks
  dsimp only
  split
  · exact .of_blocks
  · exact .of_blocks

theorem KeepsFitted.dispatch {s t : State} (h : execDispatch s = .next t) : KeepsFitted s t := by
  refine .of_serve h fun _ => ?_
  split
  · exact .onlyIf fun hrunning => .dispatchFrame (by simp_all [State.running, State.loaded]) _ _
  · exact .refl s

theorem KeepsFitted.fetchComplete {s t : State} (h : execFetchComplete s = .next t) : KeepsFitted s t := by
  refine .of_serve h fun _ => ?_
  split
  · exact .of_blocks
  · exact .refl s

/-- Between RUNNING and FLUSHING a part stays loaded (R171, R197). -/
theorem KeepsFitted.flushComplete {s t : State} (h : execFlushComplete s = .next t) : KeepsFitted s t := by
  refine .of_serve h fun _ => .onlyIf fun hflushing => .of_blocks rfl rfl rfl rfl ?_
  simp_all [State.loaded]

/-! ### The effects of the maintenance commands -/

theorem KeepsFitted.dropCommand (s : State) : KeepsFitted s s.dropCommand := .of_blocks

theorem KeepsFitted.selectEffect (table index : Byte) (shown : List Byte) (s : State) :
    KeepsFitted s ((selectCommand table index).effect shown s) := by
  simp only [selectCommand]
  split
  · exact .of_blocks
  · exact .dropCommand s

theorem KeepsFitted.countersEffect (clear : Byte) (shown : List Byte) (s : State) :
    KeepsFitted s ((countersCommand clear).effect shown s) := by
  simp only [countersCommand]
  split
  · exact .refl s
  · exact .of_blocks

theorem KeepsFitted.holdEffect (mode : Byte) (shown : List Byte) (s : State) :
    KeepsFitted s ((holdCommand mode).effect shown s) := by
  simp only [holdCommand, State.setHoldMode]
  split
  · split
    · exact .refl s
    · exact .trans .of_blocks (.evalAll _)
  · exact .dropCommand s

theorem KeepsFitted.pinRadio (r : Radio) (s : State) : KeepsFitted s (s.pinRadio r) := by
  unfold State.pinRadio
  split
  · exact .refl s
  · split
    · exact .dropCommand s
    · exact .trans .of_blocks (.evalRadios _ _)

theorem KeepsFitted.unpinRadio (r : Radio) (s : State) : KeepsFitted s (s.unpinRadio r) := by
  unfold State.unpinRadio
  split
  · exact .trans .of_blocks (.evalRadios _ _)
  · exact .refl s

theorem KeepsFitted.listenEffect (setting : Byte) (shown : List Byte) (s : State) :
    KeepsFitted s ((listenCommand setting).effect shown s) := by
  have hset : ∀ on, KeepsFitted s (s.setListenOnly on) := fun on => by
    unfold State.setListenOnly
    split
    · exact .refl s
    · exact .trans .of_blocks (.evalAll _)
  simp only [listenCommand]
  split
  · split
    · exact hset _
    · exact .dropCommand s
  · exact .dropCommand s

theorem KeepsFitted.flushEffect (shown : List Byte) (s : State) : KeepsFitted s (flushCommand.effect shown s) := by
  simp only [flushCommand]
  split
  · next hrunning => exact .beginFlush hrunning
  · exact .dropCommand s

theorem KeepsFitted.reloadEffect (shown : List Byte) (s : State) : KeepsFitted s (reloadCommand.effect shown s) := by
  simp only [reloadCommand]
  split
  · next hfault => exact .unloaded (by simp_all [State.loaded]) (hreset := fun _ _ => rfl)
  · exact .dropCommand s

/-! ### Every command -/

theorem exec_keepsFitted {c : Instr} {s t : State} (h : exec c s = .next t) : KeepsFitted s t := by
  cases c with
  | hardReset => cases h; exact .of_empty reset_entry reset_departure reset_hearing fun _ _ => rfl
  | resetRelease => exact .resetRelease h
  | readComplete pulses image => exact .readComplete h
  | missingAcknowledge pulses point =>
    exact .of_serveIf h fun _ => .onlyIf fun hload => .failLoad (State.loading_unloaded hload) _
  | stuckDataLine => exact .of_serve h fun _ => .onlyIf fun hload => .failLoad (State.loading_unloaded hload) _
  | loadDeadline progress clockHeld => exact .loadDeadline h
  | tick => exact .tick h
  | oldMark stamp => exact .oldMark h
  | reportFrameStart => exact .reportFrameStart h
  | reportFrame frame => exact .reportFrame h
  | lostDeadline i => exact .lostDeadline h
  | callActiveDeadline i => exact .fieldDeadline h fun _ => .of_fields rfl rfl rfl rfl rfl .inl id rfl rfl .inl
  | emergencyClear i => exact .fieldDeadline h fun _ => .of_fields rfl rfl rfl rfl rfl .inl id rfl rfl .inl
  | guardPeriodEnd i => exact .fieldDeadline h fun _ => .of_fields rfl rfl rfl rfl (by simp) .inl id rfl rfl .inl
  | reservationDeadline i => exact .reservationDeadline h
  | dwellExpiry i => exact .dwellExpiry h
  | exclusionDeadline i => exact .fieldDeadline h fun _ => .of_fields rfl rfl rfl rfl rfl .inl nofun rfl rfl .inl
  | answerDeadline p => exact .answerDeadline h
  | leaveDeadline p => exact .leaveDeadline h
  | strayAgeDeadline j => exact .of_serve h fun _ => .onlyIf fun _ => .of_blocks
  | hearingPeriodExpiry => exact .of_serve h fun _ => .onlyIf fun _ => .of_blocks
  | silenceDeadline n => exact .silenceDeadline h
  | hearingExpiry j => exact .hearingExpiry h
  | idleGapDeadline => exact .idleGapDeadline h
  | backoffEnd => exact .of_serve h fun _ => .onlyIf fun _ => .of_blocks
  | spacingEnd => exact .spacingEnd h
  | windowEnd => exact .of_serve h fun _ => .onlyIf fun _ => .of_blocks
  | carrierOnset => exact .carrierOnset h
  | carrierFall bytes => exact .carrierFall h
  | dispatch => exact .dispatch h
  | sentReport => exact .of_serve h fun _ => .onlyIf fun _ => .of_blocks
  | takenStrobe => exact .takenStrobe h
  | status part => exact .of_serve h fun _ => .portCommand _ part s fun _ u => .refl u
  | peekAttention part => exact .of_serve h fun _ => .portCommand _ part s fun _ u => .refl u
  | takeAttention part => exact .of_serve h fun _ => .portCommand _ part s fun _ _ => .of_blocks rfl rfl rfl rfl rfl
  | selectTable table index part => exact .of_serve h fun _ => .portCommand _ part s (.selectEffect table index)
  | readEntry part => exact .of_serve h fun _ => .portCommand _ part s fun _ _ => .of_blocks rfl rfl rfl rfl rfl
  | fetchComplete => exact .fetchComplete h
  | readCounters clear part => exact .of_serve h fun _ => .portCommand _ part s (.countersEffect clear)
  | setHold mode part => exact .of_serve h fun _ => .portCommand _ part s (.holdEffect mode)
  | pin radio part => exact .of_serve h fun _ => .portCommand _ part s fun _ u => .pinRadio radio u
  | unpin radio part => exact .of_serve h fun _ => .portCommand _ part s fun _ u => .unpinRadio radio u
  | listenOnly setting part => exact .of_serve h fun _ => .portCommand _ part s (.listenEffect setting)
  | flush part => exact .of_serve h fun _ => .portCommand _ part s .flushEffect
  | flushComplete => exact .flushComplete h
  | reload part => exact .of_serve h fun _ => .portCommand _ part s .reloadEffect
  | unknownCommand code part => exact .of_serveIf h fun _ => .portCommand _ part s fun _ u => .refl u

theorem step_keepsFitted {s t : State} (h : step s = .next t) : KeepsFitted s t := by
  unfold step at h
  split at h
  · cases h; exact .refl _
  · next c rest _ =>
    have hrest : KeepsFitted s (s.withPending rest) := .of_blocks
    exact hrest.trans (exec_keepsFitted h)

/-- Settles O56: each of the two laws is kept by every operation, so by every step. -/
theorem everyStepKeepsDeparturesAndHearingsFitted : Obligations.EveryStepKeepsDeparturesAndHearingsFitted := by
  intro s t h
  obtain ⟨hdepartures, hhearings⟩ := step_keepsFitted h
  exact ⟨hdepartures, hhearings⟩

end Sys2Proof.Machine

/-! ## Homings, refusals and observations (chapter 3, R34 to R45) -/

namespace Sys2Proof.Machine

/-! ### An offer reads link, port, site time and image -/

theorem State.offer_link (dest : Byte) (kind : FrameKind) (body : List Byte) (s : State) :
    (s.offer dest kind body).link =
      s.link.offer s.now (s.par .idleGap) s.running (completeFrame s.ownSite dest kind body) := by
  simp [State.offer]

theorem State.offer_port (dest : Byte) (kind : FrameKind) (body : List Byte) (s : State) :
    (s.offer dest kind body).port = s.port.bumpIf (s.link.verdict s.running kind != .accepted) .txDropped := by
  simp [State.offer, State.bumpIf]

/-- Two states that agree in what an offer reads agree in what it makes. -/
theorem State.offer_congr {s u : State} (hlink : u.link = s.link := by simp) (hport : u.port = s.port := by simp)
    (hnow : u.now = s.now := by simp) (hloader : u.loader = s.loader := by simp) (dest : Byte) (kind : FrameKind)
    (body : List Byte) :
    (u.offer dest kind body).link = (s.offer dest kind body).link
      ∧ (u.offer dest kind body).port = (s.offer dest kind body).port := by
  simp only [State.offer_link, State.offer_port, State.par, State.running, State.ownSite, hlink, hport, hnow, hloader,
    and_self]

/-! ### A stray entry and a REFUSE removed (R65, R143) -/

theorem StrayRemoved.remove (r : Radio) (q : StrayTracker) : StrayRemoved q (q.remove r) r where
  cursor := rfl
  deadline := rfl
  removed := fun j e he => by
    simp only [StrayTracker.remove, dropEntries_at, he]
    by_cases hr : e.radio = r <;> simp [Option.filter, hr]
  free := fun j hj => by simp only [StrayTracker.remove, dropEntries_at, hj]; rfl

theorem SteerQueue.present_orders (again : Bool) (orders : List SteerOrder) (q : SteerQueue) :
    (q.present again orders).orders = orders := by
  unfold SteerQueue.present
  split
  · rfl
  · split <;> rfl

theorem SteerQueue.present_admission (again : Bool) (orders : List SteerOrder) (q : SteerQueue) :
    (q.present again orders).admission = q.admission := by
  unfold SteerQueue.present
  split
  · rfl
  · split <;> rfl

theorem SteerQueue.present_empty (again : Bool) (q : SteerQueue) :
    (q.present again []).strRdy = false ∧ (q.present again []).strDat = []
      ∧ (q.present again []).presentations = q.presentations := ⟨rfl, rfl, rfl⟩

/-- A head is presented, anew only where it is not presented already (R140). -/
theorem SteerQueue.present_head (head : SteerOrder) (rest : List SteerOrder) (q : SteerQueue) :
    (q.present false (head :: rest)).strRdy = true ∧ (q.present false (head :: rest)).strDat = head.bytes
      ∧ (q.present false (head :: rest)).presentations =
        if q.strRdy = true ∧ q.strDat = head.bytes then q.presentations else q.presentations + 1 := by
  simp only [SteerQueue.present, Bool.not_false, Bool.true_and, Bool.and_eq_true, beq_iff_eq]
  split
  · next hshown => exact ⟨hshown.1, hshown.2, rfl⟩
  · exact ⟨rfl, rfl, rfl⟩

theorem OrderRemoved.remove {r : Radio} {q : SteerQueue} (h : q.holds r = true) : OrderRemoved q (q.remove r) r := by
  unfold SteerQueue.remove
  rw [if_pos h]
  refine ⟨SteerQueue.present_orders .., SteerQueue.present_admission .., fun hempty => ?_, fun head rest hhead => ?_⟩
  · rw [SteerQueue.present_orders] at hempty
    rw [hempty]
    exact SteerQueue.present_empty ..
  · rw [SteerQueue.present_orders] at hhead
    rw [hhead]
    exact SteerQueue.present_head ..

/-- The REFUSE order of a radio goes, where one is held (R143). -/
theorem RefuseRemoved.removeRefuse (r : Radio) (q : SteerQueue) : RefuseRemoved q (q.removeRefuse r) r := by
  have hheld : (q.orders.any fun o => o.radio == r && o.kind == .refuse) = true ↔
      ∃ x ∈ q.orders, x.radio = r ∧ x.kind = .refuse := by simp
  unfold SteerQueue.removeRefuse
  refine ⟨fun h => ?_, fun h => ?_⟩
  · rw [if_pos (hheld.mpr h)]
    obtain ⟨x, hx, hr, -⟩ := h
    exact .remove (List.any_eq_true.mpr ⟨x, hx, by simpa using hr⟩)
  · refine if_neg fun hany => ?_
    obtain ⟨x, hx, hr, hk⟩ := hheld.mp hany
    exact h x hx hr hk

/-! ### An entry created (R36, R49) -/

theorem State.createEntry_strays (i : Fin 64) (e : RosterEntry) (s : State) :
    (s.createEntry i e).strays = s.strays.remove e.radio := by simp [State.createEntry]

theorem State.createEntry_steer (i : Fin 64) (e : RosterEntry) (s : State) :
    (s.createEntry i e).steer = s.steer.removeRefuse e.radio := by
  simp [State.createEntry, State.removeRefuse]

theorem State.createEntry_pins (i : Fin 64) (e : RosterEntry) (s : State) :
    (s.createEntry i e).roster.pins = s.roster.pins := by simp [State.createEntry]

theorem State.createEntry_occupancy {s : State} {i : Fin 64} (hfree : s.roster.entries[i] = none) (e : RosterEntry) :
    (s.createEntry i e).occupancy = s.occupancy + 1 := by
  rw [State.occupancy, State.createEntry_entries]
  exact heldCount_set_some hfree e

theorem State.evalAt_occupancy (i : Fin 64) (s : State) : (s.evalAt i).occupancy = s.occupancy :=
  heldCount_updateAt ..

/-- Evaluating the entry `before` that stands at `i` now, where the rest of the roster is as it was. -/
theorem EntryBecomes.evalAt {s u : State} {i : Fin 64} {before : RosterEntry} (hp : u.roster.pins = s.roster.pins)
    (ho : ∀ j : Fin 64, j ≠ i → u.roster.entries[j] = s.roster.entries[j]) (hi : u.roster.entries[i] = some before) :
    EntryBecomes s (u.evalAt i) i before := by
  refine .of_evaluated hp (fun j hj => ?_) ?_
  · rw [State.evalAt_at, if_neg hj, ho j hj]
  · rw [State.evalAt_at, if_pos rfl, hi, (SameView.evalAt i u).evaluated]; rfl

/-! ### Paths and kinds -/

theorem isMonitor_own {o : Observation} (h : o.position.val < 6) : isMonitor o.position = false := by
  simpa [isMonitor] using h

theorem isMonitor_monitor {o : Observation} (h : 6 ≤ o.position.val) : isMonitor o.position = true := by
  simpa [isMonitor] using h

theorem State.mayCreate_iff (k : ObsKind) (s : State) :
    s.mayCreate (k == .emergency) = true ↔ s.occupancy < if k = .emergency then 64 else 60 := by
  simp [State.mayCreate, Config.emergencyLimit, Config.ordinaryLimit]

/-- The call-active deadline after an observation: REGISTRATION and DATA leave it (R40). -/
theorem State.callAfter_eq (s : State) (k : ObsKind) (old : Option Time) :
    s.callAfter k old =
      if k = .registration ∨ k = .data then old else some (s.now + BitVec.ofNat 32 (s.par .callHang * 10)) := by
  cases k <;> rfl

/-- An own-path observation of a radio without an entry. -/
theorem State.deliver_unrostered {s : State} {o : Observation} (hentry : s.rosterIndex o.radio = none)
    (hown : o.position.val < 6) : s.deliver o = s.homeOrRefuse o := by
  simp only [State.deliver, hentry, isMonitor_own hown, Bool.false_eq_true, if_false]

/-- An own-path observation of a radio with an entry. -/
theorem State.deliver_own {s : State} {o : Observation} {i : Fin 64} {e : RosterEntry}
    (hentry : s.rosterIndex o.radio = some i) (he : s.roster.entries[i] = some e) (hown : o.position.val < 6) :
    s.deliver o = s.hearRostered i e o := by
  simp only [State.deliver, hentry, isMonitor_own hown, Bool.false_eq_true, if_false, he]

/-- A monitor-path observation of a radio with an entry. -/
theorem State.deliver_monitor {s : State} {o : Observation} {i : Fin 64} (hentry : s.rosterIndex o.radio = some i)
    (hmonitor : 6 ≤ o.position.val) : s.deliver o = s.updateEntry i (s.sighted o) := by
  simp only [State.deliver, hentry, isMonitor_monitor hmonitor, if_true]

/-- A monitor-path observation of a radio without an entry. -/
theorem State.deliver_stray {s : State} {o : Observation} (hentry : s.rosterIndex o.radio = none)
    (hmonitor : 6 ≤ o.position.val) : s.deliver o = s.observeStray o := by
  simp only [State.deliver, hentry, isMonitor_monitor hmonitor, if_true]

/-! ### A homing (R34 to R37) -/

/-- The entry of a homing, field by field (R36, R40, R41). -/
theorem State.newHomed_eq (s : State) {o : Observation} (hkind : o.kind ≠ .terminator) :
    s.newHomed o =
      { radio := o.radio, state := .homed, f := 16 * (o.level - penalty o.quality), lastHeard := s.now
        lostDeadline := some (s.now + BitVec.ofNat 32 (s.par .lostTime * 100))
        count := if o.kind = .registration then o.count else none
        arrival := some
          ⟨if o.kind = .registration then o.origin else 0, s.now,
            (if o.kind = .registration then o.origin else 0) != 0 && s.par .pingPongGuard != 0⟩
        emergency :=
          if o.kind = .emergency then some (s.now + BitVec.ofNat 32 (s.par .emergencyClear * 100)) else none
        callActive :=
          if o.kind = .header ∨ o.kind = .voice ∨ o.kind = .emergency then
            some (s.now + BitVec.ofNat 32 (s.par .callHang * 10))
          else none
        away := none, dwell := none, askReady := false, exclusion := none, heardWhileLeaving := false
        reservation := none } := by
  have hcall : s.callAfter o.kind none =
      if o.kind = .header ∨ o.kind = .voice ∨ o.kind = .emergency then
        some (s.now + BitVec.ofNat 32 (s.par .callHang * 10))
      else none := by
    rw [State.callAfter_eq]
    revert hkind
    cases o.kind <;> simp
  rw [State.newHomed, hcall, seedF, effectiveLevel, Nat.mul_comm]
  rfl

theorem State.home_occupancy {s : State} {i : Fin 64} (hfree : s.roster.entries[i] = none) (o : Observation) :
    (s.home i o).occupancy = s.occupancy + 1 := by
  rw [State.home, State.evalAt_occupancy, State.occupancy, State.announce_roster]
  exact State.createEntry_occupancy hfree _

/-- Settles O15: the homing creates, announces and evaluates its entry. -/
theorem homingCreatesEntry : Obligations.HomingCreatesEntry := by
  intro s o i hentry hown hkind hroom hfree origin before announced t
  have hbefore : s.newHomed o = before := s.newHomed_eq hkind
  have ht : t = s.home i o := by
    show s.deliver o = _
    rw [State.deliver_unrostered hentry hown, State.homeOrRefuse, if_neg hkind,
      if_pos ((s.mayCreate_iff o.kind).mpr hroom), hfree]
  have hentries : ((s.createEntry i before).announce before).roster.entries = s.roster.entries.set i (some before) := by
    rw [State.announce_roster, State.createEntry_entries]
  have hoffer := State.offer_congr (s := s) (u := s.createEntry i before) (dest := 0) (kind := .homed)
    (body := homedBody before)
  rw [State.home, hbefore] at ht
  refine ⟨?_, ?_, ?_, ?_, ?_⟩
  · rw [ht]
    refine .evalAt (by rw [State.announce_roster, State.createEntry_pins]) (fun j hj => ?_) ?_
    · rw [hentries, getElem_setSlot_ne _ _ hj]
    · rw [hentries, getElem_setSlot_self]
  · rw [ht, ← hbefore]; exact State.home_occupancy (lowestFree_some hfree) o
  · have hstrays : t.strays = s.strays.remove o.radio := by
      rw [ht, State.evalAt_strays, State.announce_strays, State.createEntry_strays]
    rw [hstrays]; exact .remove ..
  · have hsteer : t.steer = s.steer.removeRefuse o.radio := by
      rw [ht, State.evalAt_steer, State.announce_steer, State.createEntry_steer]
    rw [hsteer]; exact .removeRefuse ..
  · rw [ht]
    apply State.eq_of_blocks
    case h9 => exact hoffer.1
    case h11 => exact hoffer.2
    all_goals simp

end Sys2Proof.Machine

/-! ## Homings refused, rostered handsets and strays heard -/

namespace Sys2Proof.Machine

/-! ### Counters (R192) -/

theorem Port.bump_counter_at (c : Counter) (p : Port) (n : Fin 16) :
    (p.bump c).counters[n] = if n = c.index then saturate p.counters[n] else p.counters[n] := by
  simp only [Port.bump, getElem_setSlot]
  split
  · next h => rw [h]
  · rfl

theorem Port.bumpIf_counter_at (b : Bool) (c : Counter) (p : Port) (n : Fin 16) :
    (p.bumpIf b c).counters[n] = if b = true ∧ n = c.index then saturate p.counters[n] else p.counters[n] := by
  cases b
  · simp [Port.bumpIf]
  · simpa [Port.bumpIf] using p.bump_counter_at c n

/-- Counting changes the counters alone. -/
theorem Port.bumpIf_eq (b : Bool) (c : Counter) (p : Port) :
    p.bumpIf b c = { p with counters := (p.bumpIf b c).counters } := by
  cases b <;> rfl

/-! ### A homing refused (R37, R139) -/

theorem State.offerRefuse_port (r : Radio) (s : State) :
    (s.offerRefuse r).port = s.port.bumpIf (s.steer.dropsRefuse r) .txDropped := by
  simp [State.offerRefuse, State.bumpIf]

/-- The REFUSE order formed for a radio (R139). -/
def State.refuseOrder (r : Radio) (s : State) : SteerOrder :=
  { kind := .refuse, radio := r, channel := (s.refuseTarget r).1, site := (s.refuseTarget r).2
    repeats := s.par .steerRepeats }

theorem State.offerRefuse_steer (r : Radio) (s : State) :
    (s.offerRefuse r).steer = s.steer.offerRefuse (s.refuseOrder r) := by
  simp [State.offerRefuse, State.refuseOrder]

theorem SteerQueue.isFull_iff (q : SteerQueue) : q.isFull = true ↔ 8 ≤ q.orders.length  :=
  decide_eq_true_iff

theorem SteerQueue.admitOrder_orders (o : SteerOrder) (q : SteerQueue) : (q.admitOrder o).orders = q.orders ++ [o] :=
  SteerQueue.present_orders ..

/-- The target of a REFUSE, by the neighbour through which the radio is a stray (R139). -/
theorem State.refuseTarget_of_stray {s : State} {r : Radio} {e : StrayEntry} (h : s.strays.entryOf r = some e) :
    s.refuseTarget r =
      if s.hearing.neighbours[e.neighbour].site ≠ 0 ∧ s.hearing.neighbours[e.neighbour].state = .live
          ∧ s.hearing.neighbours[e.neighbour].accept = true then
        (s.hearing.neighbours[e.neighbour].channel, s.hearing.neighbours[e.neighbour].site)
      else (0, 0) := by
  obtain ⟨j, hj, he⟩ := Option.bind_eq_some_iff.mp h
  unfold StrayTracker.indexOf at hj
  unfold State.refuseTarget
  rw [hj]
  dsimp only
  rw [he]
  simp only [Bool.and_eq_true, bne_iff_ne, beq_iff_eq, and_assoc]

theorem State.refuseTarget_of_none {s : State} {r : Radio} (h : s.strays.entryOf r = none) :
    s.refuseTarget r = (0, 0) := by
  unfold StrayTracker.entryOf StrayTracker.indexOf at h
  unfold State.refuseTarget
  cases hj : findEntry (fun e : StrayEntry => e.radio == r) s.strays.entries with
  | none => rfl
  | some j =>
    rw [hj, Option.bind_some] at h
    simp only [h]

/-- Settles O16: the refusal's counters and flag, and the REFUSE order by what the queue holds. -/
theorem homingRefusedOffersRefuse : Obligations.HomingRefusedOffersRefuse := by
  intro s o hentry hown hkind hroom held full t
  have hdrops : s.steer.dropsRefuse o.radio = true ↔ full := by
    rw [SteerQueue.dropsRefuse, Bool.and_eq_true, Bool.not_eq_true', SteerQueue.isFull_iff]
    rfl
  have ht : t = s.refuseHoming o := by
    show s.deliver o = _
    rw [State.deliver_unrostered hentry hown, State.homeOrRefuse, if_neg hkind, if_neg]
    rw [State.mayCreate_iff]
    exact Nat.not_lt.mpr hroom
  have hport : t.port =
      ((s.port.bumpIf (s.steer.dropsRefuse o.radio) .txDropped).bump .registrationsRefused).raise .rosterFull := by
    rw [ht, ← State.offerRefuse_port]; rfl
  have hsteer : t.steer = s.steer.offerRefuse (s.refuseOrder o.radio) := by
    rw [ht, ← State.offerRefuse_steer]; rfl
  have hcount : ∀ n : Fin 16, t.port.counters[n] =
      if n = 6 ∨ (full ∧ n = 12) then saturate s.port.counters[n] else s.port.counters[n] := fun n => by
    rw [hport, Port.raise_counters, Port.bump_counter_at, Port.bumpIf_counter_at]
    simp only [hdrops, Counter.index]
    by_cases h6 : n = 6
    · simp [h6]
    · simp [h6]
  refine ⟨?_, fun hfull => ?_, fun hroom => ?_, fun n h6 h12 => ?_, ?_, fun hkeep => ?_, fun hnew hfit => ?_, ?_⟩
  · exact (hcount 6).trans (if_pos (.inl rfl))
  · exact (hcount 12).trans (if_pos (.inr ⟨hfull, rfl⟩))
  · exact (hcount 12).trans (if_neg (by simp [hroom]))
  · exact (hcount n).trans (if_neg (by simp [h6, h12]))
  · rw [hport, Port.bumpIf_eq]; rfl
  · rw [hsteer, SteerQueue.offerRefuse, if_pos]
    rw [Bool.or_eq_true, SteerQueue.isFull_iff]
    exact hkeep
  · refine ⟨s.refuseOrder o.radio, ?_, rfl, rfl, rfl, fun e he => ?_, fun hnone => ?_⟩
    · rw [hsteer, SteerQueue.offerRefuse, if_neg, SteerQueue.admitOrder_orders]
      rw [Bool.or_eq_true, SteerQueue.isFull_iff, not_or, Bool.not_eq_true]
      exact ⟨hnew, Nat.not_le.mpr hfit⟩
    · exact State.refuseTarget_of_stray he
    · exact Prod.mk.inj (State.refuseTarget_of_none hnone)
  · rw [ht]
    apply State.eq_of_blocks <;> simp

/-! ### A rostered handset heard (R38 to R45) -/

/-- An entry refreshed, field by field (R38 to R41). -/
theorem State.refreshed_eq (s : State) (o : Observation) (e : RosterEntry) :
    s.refreshed o e =
      { e with
        f := observeF (s.par .filterShift) (s.par .fadeLimit) e.f o.level o.quality
        lastHeard := s.now
        lostDeadline := if e.state = .homed then some (s.now + BitVec.ofNat 32 (s.par .lostTime * 100)) else e.lostDeadline
        away := none
        count := if o.kind = .registration then o.count else e.count
        callActive :=
          if o.kind = .registration ∨ o.kind = .data then e.callActive
          else some (s.now + BitVec.ofNat 32 (s.par .callHang * 10))
        emergency :=
          if o.kind = .emergency then some (s.now + BitVec.ofNat 32 (s.par .emergencyClear * 100)) else e.emergency } := by
  rw [State.refreshed, State.callAfter_eq]
  rfl

/-- Outside HOMED a refreshed entry keeps its lost deadline. -/
theorem State.refreshed_not_homed (s : State) (o : Observation) {e : RosterEntry} (hstate : e.state ≠ .homed) :
    s.refreshed o e =
      { e with
        f := observeF (s.par .filterShift) (s.par .fadeLimit) e.f o.level o.quality
        lastHeard := s.now
        away := none
        count := if o.kind = .registration then o.count else e.count
        callActive :=
          if o.kind = .registration ∨ o.kind = .data then e.callActive
          else some (s.now + BitVec.ofNat 32 (s.par .callHang * 10))
        emergency :=
          if o.kind = .emergency then some (s.now + BitVec.ofNat 32 (s.par .emergencyClear * 100)) else e.emergency } := by
  rw [State.refreshed_eq, if_neg hstate]

/-- An entry outside EXPECTED taken by a monitor path, field by field (R44). -/
theorem State.sighted_eq (s : State) (o : Observation) {e : RosterEntry} (hstate : e.state ≠ .expected) :
    s.sighted o e =
      { e with
        away := some { neighbour := o.neighbour, stamp := s.now }
        lostDeadline :=
          if e.state = .homed then
            e.lostDeadline.map fun d =>
              if s.par .awayLoss * 100 < (d - s.now).toNat then s.now + BitVec.ofNat 32 (s.par .awayLoss * 100) else d
          else e.lostDeadline } := by
  unfold State.sighted
  cases hs : e.state with
  | homed => rfl
  | asking => rfl
  | leaving => rfl
  | expected => exact absurd hs hstate

theorem State.sighted_expected (s : State) (o : Observation) {e : RosterEntry} (hstate : e.state = .expected) :
    s.sighted o e = { e with f := observeF (s.par .filterShift) (s.par .fadeLimit) e.f o.level o.quality } := by
  simp only [State.sighted, hstate, State.observedF]

/-- A change of one entry changes the roster alone. -/
theorem State.updateEntry_eq (i : Fin 64) (f : RosterEntry → RosterEntry) (s : State) :
    s.updateEntry i f = { s with roster := (s.updateEntry i f).roster } := rfl

/-! ### A stray heard (R61 to R63) -/

theorem updateAt_eq_set {α : Type} {n : Nat} {v : Vector (Option α) n} {i : Fin n} {e : α} (h : v[i] = some e) (f : α → α) :
    updateAt v i f = v.set i (some (f e)) := by
  rw [updateAt, h]; rfl

theorem newStray_eq (x : StrayReads) (o : Observation) :
    newStray x o =
      { radio := o.radio, f := 16 * (o.level - penalty o.quality), lastHeard := x.now
        ageDeadline := after x.now x.ageTicks, neighbour := o.neighbour, reported := false } := by
  rw [newStray, seedF, effectiveLevel, Nat.mul_comm]

/-- The weakest stray: lowest own level, of those the oldest stamp, of those the lowest index (R63). -/
theorem StrayTracker.weakest_eq {now : Time} {q : StrayTracker} {j : Fin 32} {w : StrayEntry} (hj : q.entries[j] = some w)
    (hw : ∀ (k : Fin 32) x, q.entries[k] = some x →
      (w.f + 8) / 16 ≤ (x.f + 8) / 16
        ∧ ((w.f + 8) / 16 = (x.f + 8) / 16 →
          (now - x.lastHeard).toNat ≤ (now - w.lastHeard).toNat
            ∧ ((now - x.lastHeard).toNat = (now - w.lastHeard).toNat → j ≤ k))) : q.weakest now = some j := by
  have hpick : pickGreatest (fun k : Fin 32 =>
      q.entries[k].map fun e => (elapsed now e.lastHeard : Int) - (ownLevel e.f : Int) * 2 ^ 32) =
        some (j, (elapsed now w.lastHeard : Int) - (ownLevel w.f : Int) * 2 ^ 32) := by
    refine pickGreatest_eq_some (by rw [hj]; rfl) fun k b hb => ?_
    obtain ⟨x, hx, rfl⟩ := Option.map_eq_some_iff.mp hb
    obtain ⟨hlevel, htie⟩ := hw k x hx
    have hxlt := (now - x.lastHeard).isLt
    have hwlt := (now - w.lastHeard).isLt
    simp only [elapsed, ownLevel]
    constructor
    · rcases hlevel.lt_or_eq with hlt | heq
      · omega
      · have := (htie heq).1
        omega
    · intro hsame
      have heq : (w.f + 8) / 16 = (x.f + 8) / 16 := by omega
      exact (htie heq).2 (by omega)
  rw [StrayTracker.weakest, hpick]
  rfl

/-- Settles O17: the entry by path and state; the stray list by what it holds. -/
theorem rosteredHandsetIsHeard : Obligations.RosteredHandsetIsHeard := by
  refine ⟨?_, ?_⟩
  · intro s o i e hentry he t stepped refreshed limit
    refine ⟨fun hown hs => ?_, fun hown hs => ?_, fun hmonitor hs => ?_, fun hmonitor hs => ?_⟩
    · have ht : t = (s.updateEntry i (s.refreshed o)).evalAt i := by
        show s.deliver o = _
        rw [State.deliver_own hentry he hown, State.hearRostered, hs]
      have hbefore : s.refreshed o e =
          { refreshed with lostDeadline := some (s.now + BitVec.ofNat 32 (s.par .lostTime * 100)) } := by
        rw [State.refreshed_eq, if_pos hs]
      rw [ht, ← hbefore]
      exact ⟨.update_eval he _, rfl⟩
    · have ht : t = s.updateEntry i (s.refreshed o) := by
        show s.deliver o = _
        rw [State.deliver_own hentry he hown, State.hearRostered, hs]
      have hbefore : s.refreshed o e = refreshed := s.refreshed_not_homed o (by simp [hs])
      rw [ht, ← hbefore]
      exact ⟨.update he _ (by simp [State.refreshed, hs]), rfl⟩
    · have ht : t = s.updateEntry i (s.sighted o) := State.deliver_monitor hentry hmonitor
      refine ⟨?_, fun j hj => ?_, ?_, ?_⟩
      · rw [ht, State.updateEntry_at, if_pos rfl, he, Option.map_some, s.sighted_eq o hs]
      · rw [ht, State.updateEntry_at, if_neg hj]
      · rw [ht, State.updateEntry_pins]
      · rw [ht, State.updateEntry_eq]
    · have ht : t = s.updateEntry i (s.sighted o) := State.deliver_monitor hentry hmonitor
      rw [ht, ← s.sighted_expected o hs]
      exact ⟨.update he _ (by rw [s.sighted_expected o hs]; simp [hs]), rfl⟩
  · intro s o hentry hmonitor level ageDeadline fresh stored
    have hfresh : newStray s.strayReads o = fresh := newStray_eq ..
    have ht := State.deliver_stray hentry hmonitor
    refine ⟨fun j e hj he => ?_, fun hnone j hj => ?_, fun hnone hfull j w hj hw => ?_⟩
    · rw [ht, State.observeStray, StrayTracker.observe, hj]
      dsimp only
      rw [updateAt_eq_set he]
      rfl
    · rw [ht, State.observeStray, StrayTracker.observe, hnone, hj, hfresh]
      rfl
    · have hweakest : s.strays.weakest s.strayReads.now = some j := StrayTracker.weakest_eq hj hw
      rw [ht, State.observeStray, StrayTracker.observe, hnone, hfull]
      have hstronger : ownLevel w.f < effectiveLevel o.level o.quality ↔ (w.f + 8) / 16 < level := Iff.rfl
      simp only [StrayTracker.replaceWeakest, hweakest, hj, Option.any_some, decide_eq_true_eq, hfresh, hstronger]
      by_cases hlevel : (w.f + 8) / 16 < level
      · rw [if_pos hlevel, if_pos hlevel]; rfl
      · rw [if_neg hlevel, if_neg hlevel]; rfl

/-! ### The arrival of a reservation's handset (R43) -/

/-- The entry of an arrival, field by field (R43). -/
theorem State.arrived_eq (s : State) (o : Observation) {e : RosterEntry} {x : Reservation} (hx : e.reservation = some x) :
    s.arrived o e =
      { radio := e.radio, state := .homed
        f := observeF (s.par .filterShift) (s.par .fadeLimit) e.f o.level o.quality
        lastHeard := s.now
        lostDeadline := some (s.now + BitVec.ofNat 32 (s.par .lostTime * 100))
        count := if o.kind = .registration then o.count else e.count
        arrival := some
          ⟨if o.kind = .registration ∧ o.origin ≠ 0 then o.origin else x.fromSite, s.now,
            (if o.kind = .registration ∧ o.origin ≠ 0 then o.origin else x.fromSite) != 0 && s.par .pingPongGuard != 0⟩
        emergency :=
          if o.kind = .emergency then some (s.now + BitVec.ofNat 32 (s.par .emergencyClear * 100)) else e.emergency
        callActive :=
          if o.kind = .registration ∨ o.kind = .data then e.callActive
          else some (s.now + BitVec.ofNat 32 (s.par .callHang * 10))
        away := none, dwell := none, askReady := false, exclusion := none, heardWhileLeaving := false
        reservation := none } := by
  rw [State.arrived, State.callAfter_eq, hx]
  rfl

/-- Settles O18: the reservation's entry becomes HOMED where it stands, is announced and evaluated. -/
theorem arrivalTurnsReservationHomed : Obligations.ArrivalTurnsReservationHomed := by
  intro s o i e x hentry he hs hx hown origin before announced t
  have hbefore : s.arrived o e = before := s.arrived_eq o hx
  have ht : t = ((s.updateEntry i (s.arrived o)).announce before).evalAt i := by
    show s.deliver o = _
    rw [State.deliver_own hentry he hown, State.hearRostered, hs, ← hbefore]
    rfl
  have hoffer := State.offer_congr (s := s) (u := s.updateEntry i (s.arrived o)) (dest := 0) (kind := .homed)
    (body := homedBody before)
  rw [ht]
  refine ⟨.evalAt (by rw [State.announce_roster, State.updateEntry_pins]) (fun j hj => ?_) ?_, ?_⟩
  · rw [State.announce_roster, State.updateEntry_at, if_neg hj]
  · rw [State.announce_roster, State.updateEntry_at, if_pos rfl, he, ← hbefore]; rfl
  · apply State.eq_of_blocks
    case h9 => exact hoffer.1
    case h11 => exact hoffer.2
    all_goals simp

end Sys2Proof.Machine

/-! ## Deadlines of entries and departures, and a LEAVING handset heard (R42, R46, R51 to R55, R103, R115, R116, R122) -/

namespace Sys2Proof.Machine

/-! ### The arbiter after a record has been freed (R106) -/

theorem ArbiterFollows.of_idle {s u t : State} (ht : t = u.arbiter) (h : s.noneAskReady = true → u.noneAskReady = true) :
    ArbiterFollows s u t :=
  ⟨ht, fun hs => by rw [ht, State.arbiter_none (h hs)]⟩

theorem SameView.bumpIf (b : Bool) (c : Counter) (s : State) : SameView s (s.bumpIf b c) := by
  cases b
  · exact .refl s
  · exact .bump c s

/-- A change after one that touched the same index alone. -/
theorem EntryBecomes.after {s u t : State} {i : Fin 64} {before : RosterEntry} (h : EntryBecomes u t i before)
    (hp : u.roster.pins = s.roster.pins) (ho : ∀ j : Fin 64, j ≠ i → u.roster.entries[j] = s.roster.entries[j]) :
    EntryBecomes s t i before where
  pins := h.pins.trans hp
  others := fun j hj => (h.others j hj).trans (ho j hj)
  entry := h.entry

/-- A return to HOMED that is counted, before the arbiter is taken (R53). -/
theorem State.revert_counted {s : State} {d : Departure} {e : RosterEntry} (he : s.roster.entries[d.rosterIndex] = some e)
    (b : Bool) (c : Counter) :
    EntryBecomes s ((s.revert d).bumpIf b c) d.rosterIndex (s.backHome d.target e)
      ∧ RecordRemoved s ((s.revert d).bumpIf b c) d.radio
      ∧ ((s.revert d).bumpIf b c).nego.last = s.nego.last ∧ ((s.revert d).bumpIf b c).nego.previous = s.nego.previous
      ∧ ((s.revert d).bumpIf b c).steer = (if d.phase = .leaving then s.steer.remove d.radio else s.steer)
      ∧ ((s.revert d).bumpIf b c).port = s.port.bumpIf b c
      ∧ (s.noneAskReady = true → ((s.revert d).bumpIf b c).noneAskReady = true)
      ∧ (s.revert d).bumpIf b c =
          { s with
            roster := ((s.revert d).bumpIf b c).roster, nego := ((s.revert d).bumpIf b c).nego
            steer := ((s.revert d).bumpIf b c).steer, port := ((s.revert d).bumpIf b c).port } := by
  obtain ⟨hentry, hrecord, hlast, hprevious, hsteer, hready⟩ := State.revert_spec he
  refine ⟨hentry.of_blocks rfl (State.bumpIf_roster ..) (.bumpIf b c _), hrecord.of_same ?_ ?_, ?_, ?_, ?_, ?_,
    fun h => ?_, ?_⟩
  · rw [State.bumpIf_nego]
  · rw [State.bumpIf_nego]
  · rw [State.bumpIf_nego, hlast]
  · rw [State.bumpIf_nego, hprevious]
  · rw [State.bumpIf_steer, hsteer]
  · simp [State.bumpIf]
  · rw [State.noneAskReady_congr (State.bumpIf_roster ..)]; exact hready h
  · apply State.eq_of_blocks <;> simp

/-! ### A LEAVING handset heard here (R42, R123) -/

/-- Settles O19: a REGISTRATION or EMERGENCY ends the departure of the refreshed entry, any other kind marks it. -/
theorem leavingHandsetHeardHere : Obligations.LeavingHandsetHeardHere := by
  intro s o i e p d hentry he hradio hs hindex hd hi hphase hdr hown t refreshed
  subst hi
  let u := s.updateEntry d.rosterIndex (s.refreshed o)
  have hrefreshed : s.refreshed o e = refreshed := s.refreshed_not_homed o (by simp [hs])
  have hu : u.roster.entries[d.rosterIndex] = some refreshed := by
    rw [State.updateEntry_at, if_pos rfl, he, ← hrefreshed]; rfl
  have hothers : ∀ j : Fin 64, j ≠ d.rosterIndex → u.roster.entries[j] = s.roster.entries[j] := fun j hj => by
    rw [State.updateEntry_at, if_neg hj]
  have ht : t = s.hearLeaving d.rosterIndex e.radio o := by
    show s.deliver o = _
    rw [State.deliver_own hentry he hown, State.hearRostered, hs]
  refine ⟨fun hreg hem => ?_, fun hkind => ?_⟩
  · have hmarked : t = u.updateEntry d.rosterIndex fun e => { e with heardWhileLeaving := true } := by
      rw [ht, State.hearLeaving, if_neg (not_or.mpr ⟨hreg, hem⟩)]
    rw [hmarked]
    refine ⟨(EntryBecomes.update hu _ ?_).after rfl hothers, rfl⟩
    show e.state ≠ .homed
    simp [hs]
  · have hended : t = ((u.revert d).bumpIf (o.kind == .registration) .steerFailed).arbiter := by
      rw [ht, State.hearLeaving, if_pos hkind, hradio, hindex, Option.bind_some, hd]
    obtain ⟨hbecomes, hrecord, hlast, hprevious, hsteer, hport, hready, hframe⟩ :=
      State.revert_counted hu (o.kind == .registration) .steerFailed
    refine ⟨(u.revert d).bumpIf (o.kind == .registration) .steerFailed, .of_idle hended fun h => ?_,
      hbecomes.after rfl hothers, ?_, ?_, ?_, hlast, hprevious, hframe⟩
    · exact hready (State.noneAskReady_update h _ fun _ hx => hx)
    · rw [hdr] at hrecord
      exact ⟨hrecord.sequence, hrecord.removed, hrecord.free⟩
    · rw [hsteer, if_pos hphase, hdr]; rfl
    · rw [hport]
      by_cases hk : o.kind = .registration <;> simp [hk, Port.bumpIf, u]

/-! ### Deadlines of entries (R46, R51, R103) -/

theorem State.whenDue_due {s : State} {i : Fin 64} {e : RosterEntry} (he : s.roster.entries[i] = some e)
    {due : RosterEntry → Bool} (hdue : due e = true) (f : RosterEntry → State → State) : s.whenDue i due f = f e s := by
  simp only [State.whenDue, he, hdue, if_true]

theorem exec_lostDeadline {s : State} {i : Fin 64} {e : RosterEntry} (hreset : s.resetHeld = false)
    (he : s.roster.entries[i] = some e) (hs : e.state = .homed) (hdue : e.lostDeadline = some s.now) :
    exec (.lostDeadline i) s =
      .next (((s.removeEntry i).record e.radio (s.awaySite e) .lost).bump .handsetsLost) := by
  show execLostDeadline i s = _
  rw [execLostDeadline, serve_high _ hreset, State.whenDue_due he (by simp [hs, hdue, reached])]

theorem exec_reservationDeadline {s : State} {i : Fin 64} {e : RosterEntry} {x : Reservation}
    (hreset : s.resetHeld = false) (he : s.roster.entries[i] = some e) (hs : e.state = .expected)
    (hx : e.reservation = some x) (hdue : x.deadline = s.now) :
    exec (.reservationDeadline i) s = .next ((s.removeEntry i).bump .takesExpired) := by
  show execReservationDeadline i s = _
  rw [execReservationDeadline, serve_high _ hreset, State.whenDue_due he (by simp [hs, hx, hdue, reached])]

theorem exec_dwellExpiry {s : State} {i : Fin 64} {e : RosterEntry} (hreset : s.resetHeld = false)
    (he : s.roster.entries[i] = some e) (hs : e.state = .homed) (hdue : e.dwell = some s.now) :
    exec (.dwellExpiry i) s = .next (s.dwellExpires i e) := by
  show execDwellExpiry i s = _
  rw [execDwellExpiry, serve_high _ hreset, State.whenDue_due he (by simp [hs, hdue, reached])]

/-- Settles O23: the removal of the entry, with the history record and the counter of its kind. -/
theorem lostAndLapsedEntriesAreRemoved : Obligations.LostAndLapsedEntriesAreRemoved := by
  refine ⟨fun s i e hreset he hs hdue => ?_, fun s i e x hreset he hs hx hdue => ?_⟩
  · have hremoved := State.removeEntry_removed he
    refine ⟨_, exec_lostDeadline hreset he hs hdue, hremoved.of_blocks (by simp) (by simp), ?_, ?_, ?_⟩
    · rw [State.bump_nego, State.record, State.withNego_nego, (State.removeEntry_simple he (.inl hs)).1,
        State.removeEntry_now]
      cases haway : e.away <;> simp [State.awaySite, haway]
    · simp [State.bump]; rfl
    · apply State.eq_of_blocks
      case h8 =>
        rw [State.bump_steer, State.record_steer]
        exact (State.removeEntry_simple he (.inl hs)).2
      all_goals simp
  · have hremoved := State.removeEntry_removed he
    have hsimple := State.removeEntry_simple he (.inr hs)
    refine ⟨_, exec_reservationDeadline hreset he hs hx hdue, hremoved.of_blocks (by simp) (by simp), ?_, ?_⟩
    · simp [State.bump]; rfl
    · apply State.eq_of_blocks
      case h7 => rw [State.bump_nego]; exact hsimple.1
      case h8 => rw [State.bump_steer]; exact hsimple.2
      all_goals simp

/-- An opened departure leaves every other entry as it was. -/
theorem State.openDeparture_at_ne {i j : Fin 64} (hj : j ≠ i) (n : Fin 8) (s : State) :
    (s.openDeparture i n).roster.entries[j] = s.roster.entries[j] := by
  rcases s.openDeparture_cases i n with hsame | ⟨e, p, he, hp⟩
  · rw [hsame]
  · rw [State.openDeparture_entries he hp, getElem_updateAt_ne _ _ hj]

/-- The best neighbour of an entry has reported a level for it (R93, R94). -/
theorem State.levelFor_of_best {s : State} {e : RosterEntry} {n : Fin 8} {a : Int} (h : s.bestNeighbour e = some (n, a)) :
    ∃ reported, s.hearing.levelFor n e.radio = some reported := by
  obtain ⟨-, v, hv, -⟩ := State.adjustedLevel_eq_some.mp (pickGreatest_some h).1
  exact ⟨v, hv⟩

/-- An entry without its dwell deadline. -/
def RosterEntry.undwelt (e : RosterEntry) : RosterEntry := { e with dwell := none }

/-- What the end of a dwell does, by the condition and the room in the departure list (R103). -/
theorem State.dwellExpires_eq (i : Fin 64) (e : RosterEntry) (s : State) :
    s.dwellExpires i e =
      if s.candidate e then
        if (lowestFree s.nego.departures).isSome then
          match s.bestNeighbour e with
          | some (n, _) => (s.updateEntry i RosterEntry.undwelt).openDeparture i n
          | none => s.updateEntry i RosterEntry.undwelt
        else (s.updateEntry i RosterEntry.undwelt).updateEntry i fun e => { e with askReady := true }
      else s.updateEntry i RosterEntry.undwelt := rfl

theorem State.dwellExpires_at_ne {i j : Fin 64} (hj : j ≠ i) (e : RosterEntry) (s : State) :
    (s.dwellExpires i e).roster.entries[j] = s.roster.entries[j] := by
  have hundwelt : (s.updateEntry i RosterEntry.undwelt).roster.entries[j] = s.roster.entries[j] := by
    rw [State.updateEntry_at, if_neg hj]
  rw [State.dwellExpires_eq]
  split
  · split
    · split
      · rw [State.openDeparture_at_ne hj, hundwelt]
      · exact hundwelt
    · rw [State.updateEntry_at, if_neg hj, hundwelt]
  · exact hundwelt

/-- Settles O25: the three ends of a dwell, by the candidate condition and the room in the departure list. -/
theorem dwellExpiryOpensOrDefers : Obligations.DwellExpiryOpensOrDefers := by
  intro s i e hreset he hs hdue
  let undwelt := s.updateEntry i RosterEntry.undwelt
  have hentry : undwelt.roster.entries[i] = some e.undwelt := by rw [State.updateEntry_at, if_pos rfl, he]; rfl
  refine ⟨_, exec_dwellExpiry hreset he hs hdue, (NoneJoins.dwellExpires i e s).pins,
    fun j hj => State.dwellExpires_at_ne hj e s, fun hc => ?_, fun hc hfull => ?_, fun hc p hp => ?_⟩
  · have ht : s.dwellExpires i e = undwelt := by rw [State.dwellExpires_eq, hc]; rfl
    rw [ht]
    exact ⟨hentry, rfl⟩
  · have ht : s.dwellExpires i e = undwelt.updateEntry i fun e => { e with askReady := true } := by
      rw [State.dwellExpires_eq, hc, hfull]; rfl
    rw [ht]
    exact ⟨by rw [State.updateEntry_at, if_pos rfl, hentry]; rfl, rfl⟩
  · obtain ⟨-, -, -, -, hmargin⟩ := (s.candidate_iff e).mp hc
    obtain ⟨n, a, hbest, -⟩ := (s.meetsMargin_iff e).mp hmargin
    obtain ⟨reported, hlevel⟩ := State.levelFor_of_best hbest
    have ht : s.dwellExpires i e = undwelt.openDeparture i n := by
      rw [State.dwellExpires_eq, hc, hp, hbest]; rfl
    have hd := undwelt.newDeparture_eq i (e := e.undwelt) (n := n) hlevel
    have hopened := State.openDeparture_eq hentry (n := n) (p := p) hp hd
    refine ⟨n, a, hbest, ?_, reported, hlevel, ?_⟩
    · rw [ht, State.openDeparture_entries hentry hp, getElem_updateAt_self, hentry]; rfl
    · rw [ht, hopened]
      refine ⟨by simp [undwelt]; rfl, ?_, ?_, ?_⟩
      · rfl
      · rfl
      · apply State.eq_of_blocks <;> simp [undwelt]

/-! ### Deadlines of departures (R115, R116, R122) -/

theorem exec_answerDeadline {s : State} {p : Fin 4} {d : Departure} (hreset : s.resetHeld = false)
    (hd : s.nego.departures[p] = some d) (hphase : d.phase = .asking) (hdue : d.deadline = s.now) :
    exec (.answerDeadline p) s =
      .next (if d.attempt < s.par .askAttempts then s.resendAsk p d else s.askTimesOut d) := by
  show execAnswerDeadline p s = _
  rw [execAnswerDeadline, serve_high _ hreset, hd]
  simp only [hphase, hdue, beq_self_eq_true, Bool.and_self, if_true]

theorem exec_leaveDeadline {s : State} {p : Fin 4} {d : Departure} (hreset : s.resetHeld = false)
    (hd : s.nego.departures[p] = some d) (hphase : d.phase = .leaving) (hdue : d.deadline = s.now) :
    exec (.leaveDeadline p) s = .next (s.leaveEnds d) := by
  show execLeaveDeadline p s = _
  rw [execLeaveDeadline, serve_high _ hreset, hd]
  simp only [hphase, hdue, beq_self_eq_true, Bool.and_self, if_true]

/-- Settles O26: one more attempt of the same ASK, or the departure ends. -/
theorem answerDeadlineResendsOrGivesUp : Obligations.AnswerDeadlineResendsOrGivesUp := by
  intro s p d hreset hd hphase hdue
  have hexec := exec_answerDeadline hreset hd hphase hdue
  constructor
  · intro hleft again asked
    rw [hexec, if_pos hleft]
    rfl
  · intro hspent e he
    obtain ⟨hbecomes, hrecord, hlast, hprevious, hsteer, hport, hready, hframe⟩ :=
      State.revert_counted he true .asksTimedOut
    rw [if_neg (by simp [hphase])] at hsteer
    rw [hsteer] at hframe
    refine ⟨(s.revert d).bumpIf true .asksTimedOut, _, hexec, .of_idle ?_ hready, hbecomes, hrecord, hlast, hprevious,
      hport, hframe⟩
    rw [if_neg (Nat.not_lt.mpr hspent)]
    rfl

theorem State.departureIndex_isSome {s : State} {p : Fin 4} {d : Departure} (hd : s.nego.departures[p] = some d) :
    (s.departureIndex d.radio).isSome = true := by
  rw [Option.isSome_iff_ne_none]
  intro hnone
  simpa using findEntry_none.mp hnone p d hd

/-- The end of a leave deadline for a handset that was not heard: it is gone, and the arbiter is taken (R122). -/
theorem State.leaveEnds_unheard {s : State} {p : Fin 4} {d : Departure} {e : RosterEntry}
    (hd : s.nego.departures[p] = some d) (he : s.roster.entries[d.rosterIndex] = some e)
    (hheard : e.heardWhileLeaving = false) :
    s.leaveEnds d = (s.gone d.rosterIndex d.radio s.hearing.neighbours[d.target].site .unconfirmed).arbiter := by
  have hnot : ¬(s.roster.entries[d.rosterIndex].any RosterEntry.heardWhileLeaving) = true := by simp [he, hheard]
  rw [State.leaveEnds, if_neg hnot, State.depart_eq, if_pos (State.departureIndex_isSome hd)]

/-- Settles O27: the return or the removal, by the heard-while-leaving mark, and then the arbiter. -/
theorem leaveDeadlineRevertsOrRemoves : Obligations.LeaveDeadlineRevertsOrRemoves := by
  intro s p d e hreset hd hphase hdue he hradio hs
  have hexec := exec_leaveDeadline hreset hd hphase hdue
  cases hheard : e.heardWhileLeaving with
  | true =>
    obtain ⟨hbecomes, hrecord, hlast, hprevious, hsteer, hport, hready, hframe⟩ :=
      State.revert_counted he true .steerFailed
    have ht : s.leaveEnds d = ((s.revert d).bumpIf true .steerFailed).arbiter := by
      rw [State.leaveEnds, if_pos (by simp [he, hheard])]; rfl
    refine ⟨_, _, hexec, .of_idle ht hready, hrecord, ?_, fun _ => ⟨hbecomes, hlast, hprevious, hport, hframe⟩, nofun⟩
    rw [hsteer, if_pos hphase]
  | false =>
    obtain ⟨hremoved, hrecord, hsteer, hlast, hprevious⟩ :=
      State.gone_spec he s.hearing.neighbours[d.target].site .unconfirmed
    have hready := State.gone_noneAskReady he s.hearing.neighbours[d.target].site .unconfirmed
    rw [hradio] at hremoved hrecord hsteer hlast hprevious hready
    exact ⟨_, _, hexec, .of_idle (State.leaveEnds_unheard hd he hheard) hready, hrecord, hsteer, nofun,
      fun _ => ⟨hremoved, hlast, hprevious, State.gone_others ..⟩⟩

end Sys2Proof.Machine

/-! ## The frame in hand, and the answers to this site's ASKs (R77, R99, R117 to R119, R154) -/

namespace Sys2Proof.Machine

/-! ### The state in which a dispatched frame is handled -/

/-- The state before, but for the frame taken from the queue, the liveness of its source and an evaluation. -/
theorem State.dispatched_cases (s : State) (f : LinkFrame) (rest : List LinkFrame) :
    s.dispatched f rest = s.withLink { s.link with rx := rest } ∨
      ∃ n, s.dispatched f rest = (s.withLink { s.link with rx := rest }).hearFrom n ∨
        s.dispatched f rest = ((s.withLink { s.link with rx := rest }).hearFrom n).evalAll := by
  unfold State.dispatched
  split
  · exact .inl rfl
  next n _ =>
  dsimp only
  split
  · exact .inr ⟨n, .inl rfl⟩
  · exact .inr ⟨n, .inr rfl⟩

@[simp] theorem State.dispatched_now (s : State) (f : LinkFrame) (rest : List LinkFrame) :
    (s.dispatched f rest).now = s.now := by
  rcases s.dispatched_cases f rest with h | ⟨n, h | h⟩ <;> simp [h]
@[simp] theorem State.dispatched_strays (s : State) (f : LinkFrame) (rest : List LinkFrame) :
    (s.dispatched f rest).strays = s.strays := by
  rcases s.dispatched_cases f rest with h | ⟨n, h | h⟩ <;> simp [h]
@[simp] theorem State.dispatched_nego (s : State) (f : LinkFrame) (rest : List LinkFrame) :
    (s.dispatched f rest).nego = s.nego := by
  rcases s.dispatched_cases f rest with h | ⟨n, h | h⟩ <;> simp [h]
@[simp] theorem State.dispatched_steer (s : State) (f : LinkFrame) (rest : List LinkFrame) :
    (s.dispatched f rest).steer = s.steer := by
  rcases s.dispatched_cases f rest with h | ⟨n, h | h⟩ <;> simp [h]
@[simp] theorem State.dispatched_loader (s : State) (f : LinkFrame) (rest : List LinkFrame) :
    (s.dispatched f rest).loader = s.loader := by
  rcases s.dispatched_cases f rest with h | ⟨n, h | h⟩ <;> simp [h]
@[simp] theorem State.dispatched_port (s : State) (f : LinkFrame) (rest : List LinkFrame) :
    (s.dispatched f rest).port = s.port := by
  rcases s.dispatched_cases f rest with h | ⟨n, h | h⟩ <;> simp [h]
@[simp] theorem State.dispatched_pins (s : State) (f : LinkFrame) (rest : List LinkFrame) :
    (s.dispatched f rest).roster.pins = s.roster.pins := by
  rcases s.dispatched_cases f rest with h | ⟨n, h | h⟩ <;> simp [h]

theorem State.dispatched_par (s : State) (f : LinkFrame) (rest : List LinkFrame) : (s.dispatched f rest).par = s.par :=
  par_congr (by rw [State.dispatched_loader])

theorem State.dispatched_backHome (s : State) (f : LinkFrame) (rest : List LinkFrame) :
    (s.dispatched f rest).backHome = s.backHome := by
  funext target e
  rw [State.backHome, State.dispatched_now, State.dispatched_par]; rfl

theorem State.dispatched_ownSite (s : State) (f : LinkFrame) (rest : List LinkFrame) :
    (s.dispatched f rest).ownSite = byteAt s.loader.image 1 := by
  rw [State.ownSite, State.dispatched_loader]

/-- What is configured of a neighbour stays when it is heard (R76, R77). -/
theorem Hearing.makeLive_configured (now : Time) (silence : Nat) (n m : Fin 8) (h : Hearing) :
    (h.makeLive now silence n).neighbours[m].site = h.neighbours[m].site
      ∧ (h.makeLive now silence n).neighbours[m].channel = h.neighbours[m].channel := by
  by_cases hm : m = n
  · subst hm; simp [Hearing.makeLive]
  · have hne : n.val ≠ m.val := fun hv => hm (Fin.ext hv.symm)
    simp [Hearing.makeLive, hne]

theorem State.dispatched_configured (s : State) (f : LinkFrame) (rest : List LinkFrame) (m : Fin 8) :
    (s.dispatched f rest).hearing.neighbours[m].site = s.hearing.neighbours[m].site
      ∧ (s.dispatched f rest).hearing.neighbours[m].channel = s.hearing.neighbours[m].channel := by
  rcases s.dispatched_cases f rest with h | ⟨n, h | h⟩
  · rw [h]; exact ⟨rfl, rfl⟩
  · rw [h]; exact Hearing.makeLive_configured ..
  · rw [h, State.evalAll_hearing]; exact Hearing.makeLive_configured ..

theorem State.dispatched_matchingRecord (s : State) (f : LinkFrame) (rest : List LinkFrame) (source : Byte) (r : Radio)
    (q : Byte) : (s.dispatched f rest).matchingRecord source r q = s.matchingRecord source r q := by
  simp only [State.matchingRecord, State.dispatched_nego, (s.dispatched_configured f rest _).1]

theorem State.dispatched_departureIndex (s : State) (f : LinkFrame) (rest : List LinkFrame) (r : Radio) :
    (s.dispatched f rest).departureIndex r = s.departureIndex r := by
  simp only [State.departureIndex, State.dispatched_nego]

theorem State.dispatched_targetSite (s : State) (f : LinkFrame) (rest : List LinkFrame) (r : Radio) :
    (s.dispatched f rest).targetSite r = s.targetSite r := by
  simp only [State.targetSite, State.dispatched_departureIndex, State.dispatched_nego, (s.dispatched_configured f rest _).1]

/-- A frame of another kind than HEARD, addressed here: the Negotiator takes it in that state (R154). -/
theorem exec_dispatch_negotiated {s : State} {f : LinkFrame} {rest : List LinkFrame} (hreset : s.resetHeld = false)
    (hrx : s.link.rx = f :: rest) (hrunning : s.loader.opState = .running) (hkind : f.kind ≠ .heard)
    (hdest : f.dest = 0 ∨ f.dest = byteAt s.loader.image 1) :
    exec .dispatch s = .next ((s.dispatched f rest).negotiate f) := by
  let taken := s.withLink { s.link with rx := rest }
  have haddressed : taken.addressed f = true := (taken.addressed_iff f).mpr hdest
  have hserved : exec .dispatch s = .next (s.dispatchFrame f rest) := by
    show execDispatch s = _
    rw [execDispatch, serve_high _ hreset, hrx]
    simp only [running_of_opState hrunning, if_true]
  rw [hserved]
  congr 1
  unfold State.dispatchFrame State.dispatched
  cases hsource : s.hearing.neighbourOf f.source with
  | none =>
    show taken.dispatchStranger f = taken.negotiate f
    simp [State.dispatchStranger, haddressed, hkind]
  | some n =>
    show taken.dispatchNeighbour n f = _
    rw [State.dispatchNeighbour, if_neg fun h => hkind h.1]
    dsimp only
    rw [if_pos haddressed]
    by_cases hlive : s.hearing.neighbours[n].state = .live
    · rw [if_pos hlive, if_neg (by simpa [taken] using hlive)]; rfl
    · rw [if_neg hlive, if_pos (by simpa [taken] using hlive)]; rfl

/-! ### A MOVE offered (R117, R138) -/

/-- The MOVE order formed for a radio toward neighbour `n` (R138). -/
def State.moveOrder (r : Radio) (n : Fin 8) (s : State) : SteerOrder :=
  { kind := .move, radio := r, channel := s.hearing.neighbours[n].channel, site := s.hearing.neighbours[n].site
    repeats := s.par .steerRepeats }

theorem State.offerMove_steer (r : Radio) (n : Fin 8) (s : State) :
    (s.offerMove r n).steer = s.steer.offerMove (s.moveOrder r n) := by
  simp [State.offerMove, State.moveOrder]

theorem State.offerMove_port (r : Radio) (n : Fin 8) (s : State) :
    (s.offerMove r n).port = s.port.bumpIf s.steer.displaces .txDropped := by
  simp [State.offerMove, State.bumpIf]

/-- With room in the queue the order goes to the tail and nothing is counted. -/
theorem SteerQueue.offerMove_room {q : SteerQueue} (h : q.orders.length < 8) (o : SteerOrder) :
    (q.offerMove o).orders = q.orders ++ [o] ∧ q.displaces = false := by
  have hroom : q.isFull = false := Bool.eq_false_iff.mpr fun hfull => absurd (q.isFull_iff.mp hfull) (by omega)
  refine ⟨?_, by rw [SteerQueue.displaces, hroom]; rfl⟩
  rw [SteerQueue.offerMove, hroom]
  exact SteerQueue.admitOrder_orders ..

theorem State.dispatched_offerMove (s : State) (f : LinkFrame) (rest : List LinkFrame) (r : Radio) (n : Fin 8) :
    ((s.dispatched f rest).offerMove r n).steer = (s.offerMove r n).steer
      ∧ ((s.dispatched f rest).offerMove r n).port = (s.offerMove r n).port := by
  have horder : (s.dispatched f rest).moveOrder r n = s.moveOrder r n := by
    simp only [State.moveOrder, s.dispatched_configured f rest n, State.dispatched_par]
  constructor
  · rw [State.offerMove_steer, State.offerMove_steer, horder, State.dispatched_steer]
  · rw [State.offerMove_port, State.offerMove_port, State.dispatched_steer, State.dispatched_port]

/-! ### A matching TAKE accepted (R54, R117, R122) -/

theorem State.takeAccepted_steer (p : Fin 4) (d : Departure) (ticks : Nat) (s : State) :
    (s.takeAccepted p d ticks).steer = (s.offerMove d.radio d.target).steer := by
  rw [State.takeAccepted, State.offerMove_steer, State.offerMove_steer]; rfl

theorem State.takeAccepted_port (p : Fin 4) (d : Departure) (ticks : Nat) (s : State) :
    (s.takeAccepted p d ticks).port = (s.offerMove d.radio d.target).port := by
  rw [State.takeAccepted, State.offerMove_port, State.offerMove_port]; rfl

theorem State.takeAccepted_pins (p : Fin 4) (d : Departure) (ticks : Nat) (s : State) :
    (s.takeAccepted p d ticks).roster.pins = s.roster.pins := by
  simp [State.takeAccepted]

theorem State.takeAccepted_hearing (p : Fin 4) (d : Departure) (ticks : Nat) (s : State) :
    (s.takeAccepted p d ticks).hearing = s.hearing := by
  simp [State.takeAccepted]

theorem State.takeAccepted_others (p : Fin 4) (d : Departure) (ticks : Nat) (s : State) :
    s.takeAccepted p d ticks =
      { s with
        nego := { s.nego with departures := (s.takeAccepted p d ticks).nego.departures }
        roster := (s.takeAccepted p d ticks).roster, steer := (s.offerMove d.radio d.target).steer
        port := (s.offerMove d.radio d.target).port } := by
  apply State.eq_of_blocks
  case h7 => simp only [State.takeAccepted_nego]
  case h8 => exact State.takeAccepted_steer ..
  case h11 => exact State.takeAccepted_port ..
  all_goals simp [State.takeAccepted]

theorem State.takeAccepted_noneAskReady {p : Fin 4} {d : Departure} {ticks : Nat} {s : State}
    (h : s.noneAskReady = true) : (s.takeAccepted p d ticks).noneAskReady = true := by
  rw [State.noneAskReady_iff] at h ⊢
  intro j x hx
  rw [State.takeAccepted_entries, getElem_updateAt] at hx
  split at hx
  · obtain ⟨e, he, rfl⟩ := Option.map_eq_some_iff.mp hx
    exact h _ e he
  · exact h j x hx

/-- A removal seen from before a change of the removed entry. -/
theorem EntryRemoved.of_updated {s t u : State} {i : Fin 64} {r : Radio} (h : EntryRemoved t u i r)
    (f : RosterEntry → RosterEntry) (hp : t.roster.pins = s.roster.pins)
    (he : t.roster.entries = updateAt s.roster.entries i f) (hh : t.hearing = s.hearing) : EntryRemoved s u i r where
  pins := h.pins.trans hp
  position := h.position
  others := fun j hj => by rw [h.others j hj, he, getElem_updateAt_ne _ _ hj]
  occupancy := by rw [h.occupancy, State.occupancy, he, heldCount_updateAt]; rfl
  neighbours := by rw [h.neighbours, hh]
  pruned := by rw [← hh]; exact h.pruned
  free := by rw [← hh]; exact h.free

theorem RecordRemoved.from_same {s s' u : State} {r : Radio} (h : RecordRemoved s' u r) (hn : s'.nego = s.nego) :
    RecordRemoved s u r :=
  ⟨by rw [← hn]; exact h.sequence, by rw [← hn]; exact h.removed, by rw [← hn]; exact h.free⟩

/-- The removal of a record seen from before a change of that record. -/
theorem RecordRemoved.of_changed {s t u : State} {r : Radio} (h : RecordRemoved t u r) {p : Fin 4} {d d' : Departure}
    (hd : s.nego.departures[p] = some d) (hr : d.radio = r) (hr' : d'.radio = r)
    (hset : t.nego.departures = s.nego.departures.set p (some d')) (hq : t.nego.sequence = s.nego.sequence) :
    RecordRemoved s u r where
  sequence := h.sequence.trans hq
  removed := fun q x hx => by
    by_cases hqp : q = p
    · subst hqp
      obtain rfl := Option.some.inj (hd.symm.trans hx)
      rw [h.removed q d' (by rw [hset]; exact getElem_setSlot_self ..), if_pos hr', if_pos hr]
    · exact h.removed q x (by rw [hset, getElem_setSlot_ne _ _ hqp]; exact hx)
  free := fun q hq => by
    have hqp : q ≠ p := by rintro rfl; rw [hd] at hq; cases hq
    exact h.free q (by rw [hset, getElem_setSlot_ne _ _ hqp]; exact hq)

/-- A TAKE whose leave deadline is now: the departure is LEAVING and the handset gone in one event (R122, R182). -/
theorem State.acceptTake_atOnce {s : State} {p : Fin 4} {d : Departure} {e : RosterEntry} {h : Nat}
    (he : s.roster.entries[d.rosterIndex] = some e)
    (hnow : h + s.par .leaveMargin = 0) :
    s.acceptTake p d h =
      ((s.takeAccepted p d 0).gone d.rosterIndex d.radio s.hearing.neighbours[d.target].site .unconfirmed).arbiter := by
  have hrecord : (s.takeAccepted p d 0).nego.departures[p] = some (d.leavingAt (s.due 0)) := by
    rw [State.takeAccepted_nego]; exact getElem_setSlot_self ..
  have hentry : (s.takeAccepted p d 0).roster.entries[d.rosterIndex] = some e.toLeaving := by
    rw [State.takeAccepted_entries, getElem_updateAt_self, he]; rfl
  rw [State.acceptTake_eq, hnow, if_pos rfl, State.leaveEnds_unheard hrecord hentry rfl, State.takeAccepted_hearing]
  rfl

/-- A handset gone in the event that made its departure LEAVING. -/
theorem State.takeAccepted_gone {s : State} {p : Fin 4} {d : Departure} {e : RosterEntry}
    (hd : s.nego.departures[p] = some d) (he : s.roster.entries[d.rosterIndex] = some e) (hradio : e.radio = d.radio)
    (ticks : Nat) (site : Byte) (o : Departed) :
    let u := (s.takeAccepted p d ticks).gone d.rosterIndex d.radio site o
    EntryRemoved s u d.rosterIndex d.radio ∧ RecordRemoved s u d.radio
      ∧ u.steer = (s.offerMove d.radio d.target).steer.remove d.radio
      ∧ u.nego.last = some { radio := d.radio, toSite := site, stamp := s.now, outcome := o }
      ∧ u.nego.previous = s.nego.last
      ∧ (s.noneAskReady = true → u.noneAskReady = true)
      ∧ u = { s with
              roster := u.roster, hearing := u.hearing, nego := u.nego, steer := u.steer
              port := (s.offerMove d.radio d.target).port } := by
  intro u
  have hentry : (s.takeAccepted p d ticks).roster.entries[d.rosterIndex] = some e.toLeaving := by
    rw [State.takeAccepted_entries, getElem_updateAt_self, he]; rfl
  have htoLeaving : e.toLeaving.radio = d.radio := hradio
  obtain ⟨hremoved, hrecord, hsteer, hlast, hprevious⟩ := State.gone_spec hentry site o
  have hready := State.gone_noneAskReady hentry site o
  rw [htoLeaving] at hremoved hrecord hsteer hlast hprevious hready
  have hnego := State.takeAccepted_nego p d ticks s
  refine ⟨hremoved.of_updated _ (State.takeAccepted_pins ..) (State.takeAccepted_entries ..)
      (State.takeAccepted_hearing ..),
    hrecord.of_changed hd rfl (d' := d.leavingAt (s.due ticks)) rfl (by rw [hnego]) (by rw [hnego]),
    by rw [hsteer, State.takeAccepted_steer], ?_, ?_, fun h => hready (State.takeAccepted_noneAskReady h), ?_⟩
  · rw [hlast, State.takeAccepted_others]
  · rw [hprevious, hnego]
  · have hothers := State.gone_others d.rosterIndex d.radio site o (s.takeAccepted p d ticks)
    apply State.eq_of_blocks
    case h11 => exact (congrArg State.port hothers).trans (State.takeAccepted_port ..)
    all_goals simp [u, State.gone, State.takeAccepted]

/-! ### The answers (R117 to R119) -/

theorem State.receiveTake_eq {s : State} {f : LinkFrame} {p : Fin 4} {d : Departure}
    (hp : s.matchingRecord f.source (radioAt f.body 0) (byteAt f.body 3) = some p) (hd : s.nego.departures[p] = some d) :
    s.receiveTake f = s.acceptTake p d (byteAt f.body 4).toNat := by
  simp only [State.receiveTake, hp, hd]

theorem State.receiveDecline_eq {s : State} {f : LinkFrame} {p : Fin 4} {d : Departure}
    (hp : s.matchingRecord f.source (radioAt f.body 0) (byteAt f.body 3) = some p) (hd : s.nego.departures[p] = some d) :
    s.receiveDecline f = ((s.revert d).bump .asksDeclined).arbiter := by
  simp only [State.receiveDecline, hp, hd]

/-- Settles O39: the answers that match, by their kind and the hold time, and the ones that do not. -/
theorem answersMoveTheDeparture : Obligations.AnswersMoveTheDeparture := by
  intro s f rest hreset hrx hrunning hdest heard matched
  have hmatched : heard.matchingRecord f.source (radioAt f.body 0) (byteAt f.body 3) = matched :=
    State.dispatched_matchingRecord ..
  have hnego : heard.nego = s.nego := State.dispatched_nego ..
  have htaken (hkind : f.kind = .take) : exec .dispatch s = .next (heard.receiveTake f) := by
    rw [exec_dispatch_negotiated hreset hrx hrunning (by simp [hkind]) hdest, State.negotiate, hkind]
  have hdeclined (hkind : f.kind = .decline) : exec .dispatch s = .next (heard.receiveDecline f) := by
    rw [exec_dispatch_negotiated hreset hrx hrunning (by simp [hkind]) hdest, State.negotiate, hkind]
  refine ⟨fun hkind hnone => ?_, fun p d hp hd => State.matchingRecord_some hp hd, ?_⟩
  · rw [hnone] at hmatched
    rcases hkind with hkind | hkind
    · rw [htaken hkind, State.receiveTake, hmatched]
    · rw [hdeclined hkind, State.receiveDecline, hmatched]
  intro p d e hp hd he target offered
  rw [hp] at hmatched
  have hrecord : heard.nego.departures[p] = some d := by rw [hnego]; exact hd
  obtain ⟨hsteer, hport⟩ := s.dispatched_offerMove f rest d.radio d.target
  obtain ⟨hsite, -⟩ := s.dispatched_configured f rest d.target
  have hnow : heard.now = s.now := State.dispatched_now ..
  have hmargin : heard.par .leaveMargin = s.par .leaveMargin := by rw [State.dispatched_par]
  refine ⟨fun hkind hlater => ?_, fun hkind hradio hatOnce => ?_, fun hkind => ?_⟩
  · let ticks := ((byteAt f.body 4).toNat + s.par .leaveMargin) * 10
    have ht : exec .dispatch s = .next (heard.takeAccepted p d ticks) := by
      rw [htaken hkind, State.receiveTake_eq hmatched hrecord, State.acceptTake_eq, hmargin, if_neg (by omega)]
    refine ⟨_, ht, ?_, ?_, fun j hj => ?_, ?_, fun hroom => ⟨?_, ?_⟩, ?_⟩
    · rw [State.takeAccepted_nego, hnego, State.due, hnow]; rfl
    · rw [State.takeAccepted_entries, getElem_updateAt_self, he]; rfl
    · rw [State.takeAccepted_entries, getElem_updateAt_ne _ _ hj]
    · rw [State.takeAccepted_pins]; exact State.dispatched_pins ..
    · rw [State.takeAccepted_port, hport, State.offerMove_port, (SteerQueue.offerMove_room hroom (s.moveOrder d.radio d.target)).2]
      rfl
    · rw [State.takeAccepted_steer, hsteer, State.offerMove_steer, (SteerQueue.offerMove_room hroom _).1]; rfl
    · refine (State.takeAccepted_others ..).trans ?_
      rw [hnego, hsteer, hport]
  · have ht : exec .dispatch s = .next
        ((heard.takeAccepted p d 0).gone d.rosterIndex d.radio target.site .unconfirmed).arbiter := by
      rw [htaken hkind, State.receiveTake_eq hmatched hrecord, State.acceptTake_atOnce he (by rw [hmargin]; exact hatOnce),
        hsite]
    obtain ⟨hremoved, hdropped, hordered, hlast, hprevious, hready, hframe⟩ :=
      State.takeAccepted_gone hrecord he hradio 0 target.site .unconfirmed
    rw [hordered, hsteer, hport] at hframe
    rw [hnow] at hlast
    rw [hnego] at hprevious
    exact ⟨_, _, ht, .of_idle rfl hready, hremoved, hdropped.from_same hnego, hlast, hprevious, hframe⟩
  · obtain ⟨hbecomes, hdropped, hlast, hprevious, hkept, hcounted, hready, hframe⟩ :=
      State.revert_counted he true .asksDeclined
    have hphase : d.phase ≠ .leaving := by
      obtain ⟨-, hasking, -⟩ := State.matchingRecord_some hmatched hrecord
      simp [hasking]
    rw [if_neg hphase] at hkept
    rw [hkept] at hframe
    have ht : exec .dispatch s = .next ((heard.revert d).bumpIf true .asksDeclined).arbiter := by
      rw [hdeclined hkind, State.receiveDecline_eq hmatched hrecord]; rfl
    rw [hnego] at hlast hprevious
    rw [State.dispatched_backHome] at hbecomes
    rw [State.dispatched_port] at hcounted
    exact ⟨_, _, ht, .of_idle rfl hready, hbecomes, hdropped.from_same hnego, hlast, hprevious, hcounted, hframe⟩

end Sys2Proof.Machine

/-! ## A neighbour's ASK answered, and its HOMED taken (R50, R125 to R132) -/

namespace Sys2Proof.Machine

/-! ### The roster in which a dispatched frame is handled -/

theorem findEntry_mapEntries {α : Type} {n : Nat} {p : α → Bool} {g : α → α} (h : ∀ e, p (g e) = p e)
    (v : Vector (Option α) n) : findEntry p (mapEntries g v) = findEntry p v := by
  simp only [findEntry, mapEntries_at, Option.any_map, h]

/-- The entries are as they were, or evaluated (R77, R99). -/
theorem State.dispatched_entries (s : State) (f : LinkFrame) (rest : List LinkFrame) :
    ∃ g : RosterEntry → RosterEntry, (∀ e, (g e).radio = e.radio) ∧ (∀ e, e.state ≠ .homed → g e = e)
      ∧ (s.dispatched f rest).roster.entries = mapEntries g s.roster.entries := by
  have hsame : s.roster.entries = mapEntries id s.roster.entries := by
    ext j hj : 1
    exact ((mapEntries_at id s.roster.entries ⟨j, hj⟩).trans (Option.map_id_apply ..)).symm
  rcases s.dispatched_cases f rest with h | ⟨n, h | h⟩
  · exact ⟨id, fun _ => rfl, fun _ _ => rfl, by rw [h]; exact hsame⟩
  · exact ⟨id, fun _ => rfl, fun _ _ => rfl, by rw [h]; exact hsame⟩
  · exact ⟨_, State.evaluated_radio _, fun _ => State.evaluated_other _, by rw [h]; rfl⟩

theorem State.dispatched_rosterIndex (s : State) (f : LinkFrame) (rest : List LinkFrame) (r : Radio) :
    (s.dispatched f rest).rosterIndex r = s.rosterIndex r := by
  obtain ⟨g, hradio, -, hentries⟩ := s.dispatched_entries f rest
  rw [State.rosterIndex, hentries]
  exact findEntry_mapEntries (fun e => by rw [hradio]) _

theorem State.dispatched_occupancy (s : State) (f : LinkFrame) (rest : List LinkFrame) :
    (s.dispatched f rest).occupancy = s.occupancy := by
  obtain ⟨g, -, -, hentries⟩ := s.dispatched_entries f rest
  rw [State.occupancy, hentries, heldCount_mapEntries]; rfl

/-- Only HOMED entries are evaluated. -/
theorem State.dispatched_at {s : State} {i : Fin 64} {e : RosterEntry} (he : s.roster.entries[i] = some e)
    (hstate : e.state ≠ .homed) (f : LinkFrame) (rest : List LinkFrame) :
    (s.dispatched f rest).roster.entries[i] = some e := by
  obtain ⟨g, -, hsame, hentries⟩ := s.dispatched_entries f rest
  rw [hentries, mapEntries_at, he, Option.map_some, hsame e hstate]

theorem State.dispatched_neighbourOf (s : State) (f : LinkFrame) (rest : List LinkFrame) (site : Byte) :
    (s.dispatched f rest).hearing.neighbourOf site = s.hearing.neighbourOf site := by
  simp only [Hearing.neighbourOf, (s.dispatched_configured f rest _).1]

/-! ### The first case of R125 that holds -/

theorem State.askAnswer_stranger {s : State} {source : Byte} (h : s.hearing.neighbourOf source = none) (r : Radio) (q : Byte)
    (emergency : Bool) : s.askAnswer source r q emergency = .decline 5 := by
  rw [State.askAnswer, h]; rfl

theorem State.askAnswer_listenOnly {s : State} {source : Byte} {n : Fin 8} (h : s.hearing.neighbourOf source = some n)
    (hlisten : s.port.listenOnly = true) (r : Radio) (q : Byte) (emergency : Bool) :
    s.askAnswer source r q emergency = .unanswered := by
  rw [State.askAnswer, h, hlisten]; rfl

theorem State.askAnswer_closed {s : State} {source : Byte} {n : Fin 8} (h : s.hearing.neighbourOf source = some n)
    (hlisten : s.port.listenOnly = false) (hhold : s.port.hold = .closed) (r : Radio) (q : Byte) (emergency : Bool) :
    s.askAnswer source r q emergency = .decline 1 := by
  rw [State.askAnswer, h, hlisten, hhold]; rfl

section
variable {s : State} {source : Byte} {n : Fin 8} {r : Radio} {q : Byte} {emergency : Bool}
  (h : s.hearing.neighbourOf source = some n) (hlisten : s.port.listenOnly = false) (hhold : s.port.hold ≠ .closed)
include h hlisten hhold

theorem State.askAnswer_rostered {i : Fin 64} {e : RosterEntry} (hi : s.rosterIndex r = some i)
    (he : s.roster.entries[i] = some e) :
    s.askAnswer source r q emergency = if e.reservedFor source q then .renew i else .decline 2 := by
  simp [State.askAnswer, h, hlisten, hhold, hi, he]

theorem State.askAnswer_unheard (hi : s.rosterIndex r = none) (hstray : s.strays.entryOf r = none) :
    s.askAnswer source r q emergency = .decline 3 := by
  simp [State.askAnswer, h, hlisten, hhold, hi, hstray]

theorem State.askAnswer_full {stray : StrayEntry} (hi : s.rosterIndex r = none) (hstray : s.strays.entryOf r = some stray)
    (hfull : (if emergency then 64 else 60) ≤ s.occupancy) : s.askAnswer source r q emergency = .decline 4 := by
  have hroom : s.mayCreate emergency = false := decide_eq_false (Nat.not_lt.mpr hfull)
  simp [State.askAnswer, h, hlisten, hhold, hi, hstray, hroom]

theorem State.askAnswer_accepted {stray : StrayEntry} {i : Fin 64} (hi : s.rosterIndex r = none)
    (hstray : s.strays.entryOf r = some stray) (hroom : s.occupancy < if emergency then 64 else 60)
    (hfree : lowestFree s.roster.entries = some i) : s.askAnswer source r q emergency = .accept i stray := by
  have hmay : s.mayCreate emergency = true := decide_eq_true hroom
  simp [State.askAnswer, h, hlisten, hhold, hi, hstray, hmay, hfree]

end

/-! ### What follows on each answer (R126 to R128) -/

/-- The answer to the ASK in the frame `f`. -/
def State.answerTo (f : LinkFrame) (s : State) : AskAnswer :=
  s.askAnswer f.source (radioAt f.body 0) (byteAt f.body 3) ((byteAt f.body 6).getLsbD 0)

theorem State.receiveAsk_unanswered {s : State} {f : LinkFrame} (h : s.answerTo f = .unanswered) : s.receiveAsk f = s := by
  unfold State.answerTo at h
  simp only [State.receiveAsk, h]

theorem State.receiveAsk_decline {s : State} {f : LinkFrame} {reason : Byte} (h : s.answerTo f = .decline reason) :
    s.receiveAsk f = s.offer f.source .decline (radioBytes (radioAt f.body 0) ++ [byteAt f.body 3, reason]) := by
  unfold State.answerTo at h
  simp only [State.receiveAsk, h, answerBody]

theorem State.receiveAsk_renew {s : State} {f : LinkFrame} {i : Fin 64} (h : s.answerTo f = .renew i) :
    s.receiveAsk f = (s.updateEntry i s.renewed).offerTake f.source (radioAt f.body 0) (byteAt f.body 3) := by
  unfold State.answerTo at h
  simp only [State.receiveAsk, h]

theorem State.receiveAsk_accept {s : State} {f : LinkFrame} {i : Fin 64} {stray : StrayEntry}
    (h : s.answerTo f = .accept i stray) :
    s.receiveAsk f =
      ((s.createEntry i (s.newExpected (radioAt f.body 0) stray.f f.source (byteAt f.body 3))).offerTake f.source
        (radioAt f.body 0) (byteAt f.body 3)).bump .takesGiven := by
  unfold State.answerTo at h
  simp only [State.receiveAsk, h]

theorem exec_dispatch_ask {s : State} {f : LinkFrame} {rest : List LinkFrame} (hreset : s.resetHeld = false)
    (hrx : s.link.rx = f :: rest) (hrunning : s.loader.opState = .running) (hkind : f.kind = .ask)
    (hdest : f.dest = 0 ∨ f.dest = byteAt s.loader.image 1) :
    exec .dispatch s = .next ((s.dispatched f rest).receiveAsk f) := by
  rw [exec_dispatch_negotiated hreset hrx hrunning (by simp [hkind]) hdest, State.negotiate, hkind]

theorem exec_dispatch_homed {s : State} {f : LinkFrame} {rest : List LinkFrame} (hreset : s.resetHeld = false)
    (hrx : s.link.rx = f :: rest) (hrunning : s.loader.opState = .running) (hkind : f.kind = .homed)
    (hdest : f.dest = 0 ∨ f.dest = byteAt s.loader.image 1) :
    exec .dispatch s = .next ((s.dispatched f rest).receiveHomed f) := by
  rw [exec_dispatch_negotiated hreset hrx hrunning (by simp [hkind]) hdest, State.negotiate, hkind]

/-- A TAKE offered after a change of the tables alone is the same TAKE (R126). -/
theorem State.offerTake_congr {s u : State} (source : Byte) (r : Radio) (q : Byte) (hlink : u.link = s.link := by simp)
    (hport : u.port = s.port := by simp) (hnow : u.now = s.now := by simp) (hloader : u.loader = s.loader := by simp) :
    (u.offerTake source r q).link = (s.offerTake source r q).link
      ∧ (u.offerTake source r q).port = (s.offerTake source r q).port := by
  rw [State.offerTake, State.offerTake, par_congr (by rw [hloader] : u.loader.image = s.loader.image)]
  exact State.offer_congr hlink hport hnow hloader ..

/-- The TAKE that answers the frame in hand (R126, R127). -/
theorem State.dispatched_offerTake (s : State) (f : LinkFrame) (rest : List LinkFrame) (source : Byte) (r : Radio) (q : Byte) :
    (s.dispatched f rest).offerTake source r q =
      (s.dispatched f rest).offer source .take (radioBytes r ++ [q, BitVec.ofNat 8 (s.par .arrivalTimeout)]) := by
  rw [State.offerTake, State.dispatched_par]; rfl

theorem State.updateEntry_offerTake (i : Fin 64) (g : RosterEntry → RosterEntry) (source : Byte) (r : Radio) (q : Byte)
    (s : State) :
    (s.updateEntry i g).offerTake source r q =
      { s with
        roster := ((s.updateEntry i g).offerTake source r q).roster, link := (s.offerTake source r q).link
        port := (s.offerTake source r q).port } := by
  obtain ⟨hlink, hport⟩ := State.offerTake_congr (s := s) (u := s.updateEntry i g) source r q
  apply State.eq_of_blocks
  case h9 => exact hlink
  case h11 => exact hport
  all_goals simp

/-- Settles O42: the reservation's deadline is renewed, and the TAKE offered again. -/
theorem repeatedAskRenewsReservation : Obligations.RepeatedAskRenewsReservation := by
  intro s f rest n i e x hreset hrx hrunning hkind hdest hsource hlisten hhold hi he hstate hx hfrom hsequence heard answered
  have hentry : heard.roster.entries[i] = some e := State.dispatched_at he (by simp [hstate]) f rest
  have hreserved : e.reservedFor f.source (byteAt f.body 3) = true := by
    simp [RosterEntry.reservedFor, hstate, hx, hfrom, hsequence]
  have hanswer : heard.answerTo f = .renew i := by
    rw [State.answerTo, State.askAnswer_rostered (n := n) (by rw [State.dispatched_neighbourOf, hsource])
      (by rw [State.dispatched_port, hlisten]) (by rw [State.dispatched_port]; exact hhold)
      (by rw [State.dispatched_rosterIndex, hi]) hentry, if_pos hreserved]
  refine ⟨_, (exec_dispatch_ask hreset hrx hrunning hkind hdest).trans (congrArg _ (State.receiveAsk_renew hanswer)),
    ?_, fun j hj => ?_, ?_, ?_, ?_⟩
  · rw [State.offerTake_roster, State.updateEntry_at, if_pos rfl, hentry, Option.map_some, State.renewed, hx,
      State.dispatched_par, State.due, State.dispatched_now]
    rfl
  · rw [State.offerTake_roster, State.updateEntry_at, if_neg hj]
  · rw [State.offerTake_roster, State.updateEntry_pins, State.dispatched_pins]
  · rw [State.occupancy, State.offerTake_roster, ← State.dispatched_occupancy s f rest]
    exact heldCount_updateAt ..
  · refine (State.updateEntry_offerTake ..).trans ?_
    rw [State.dispatched_offerTake]

/-- A reservation made and its TAKE offered and counted, block by block (R49, R126, R128). -/
theorem State.accepted_others (i : Fin 64) (e : RosterEntry) (source : Byte) (r : Radio) (q : Byte) (s : State) :
    ((s.createEntry i e).offerTake source r q).bump .takesGiven =
      { s with
        roster := (((s.createEntry i e).offerTake source r q).bump .takesGiven).roster
        strays := (((s.createEntry i e).offerTake source r q).bump .takesGiven).strays
        steer := (((s.createEntry i e).offerTake source r q).bump .takesGiven).steer
        link := (s.offerTake source r q).link, port := (s.offerTake source r q).port.bump .takesGiven } := by
  obtain ⟨hlink, hport⟩ := State.offerTake_congr (s := s) (u := s.createEntry i e) source r q
  apply State.eq_of_blocks
  case h9 => rw [State.bump_link]; exact hlink
  case h11 => rw [← hport]; rfl
  all_goals simp

/-- Settles O41: the cases of R125 in their order, each by the facts that pass over the ones before it. -/
theorem askIsAnsweredByTheFirstCase : Obligations.AskIsAnsweredByTheFirstCase := by
  intro s f rest hreset hrx hrunning hkind hdest r q emergency taken
  have hexec := exec_dispatch_ask hreset hrx hrunning hkind hdest
  constructor
  · intro hsource
    have htaken : s.dispatched f rest = taken := by rw [State.dispatched, hsource]
    rw [hexec, htaken]
    exact congrArg _ (State.receiveAsk_decline (State.askAnswer_stranger hsource ..))
  intro n hsource heard declined
  have hneighbour : heard.hearing.neighbourOf f.source = some n := by rw [State.dispatched_neighbourOf, hsource]
  have hport : heard.port = s.port := State.dispatched_port ..
  have hstrays : heard.strays = s.strays := State.dispatched_strays ..
  have declined_of {reason : Byte} (h : heard.answerTo f = .decline reason) : declined reason :=
    hexec.trans (congrArg _ (State.receiveAsk_decline h))
  refine ⟨fun hlisten => ?_, fun hlisten => ?_⟩
  · exact hexec.trans (congrArg _ (State.receiveAsk_unanswered
      (State.askAnswer_listenOnly hneighbour (by rw [hport, hlisten]) ..)))
  rw [← hport] at hlisten
  refine ⟨fun hhold => declined_of (State.askAnswer_closed hneighbour hlisten (by rw [hport, hhold]) ..), fun hhold => ?_⟩
  rw [← hport] at hhold
  have hrostered {i : Fin 64} {e : RosterEntry} (hi : heard.rosterIndex r = some i) (he : heard.roster.entries[i] = some e)
      (hother : e.reservedFor f.source q = false) : declined 2 :=
    declined_of ((State.askAnswer_rostered hneighbour hlisten hhold hi he).trans (by rw [hother]; rfl))
  refine ⟨fun i e hi he hstate => hrostered hi he ?_, fun i e x hi he hstate hx hother => hrostered hi he ?_,
    fun hi hstray => ?_, fun hi hstray hfull => ?_, ?_⟩
  · simp [RosterEntry.reservedFor, hstate]
  · simpa [RosterEntry.reservedFor, hstate, hx] using hother
  · exact declined_of (State.askAnswer_unheard hneighbour hlisten hhold hi (by rw [hstrays, hstray]))
  · obtain ⟨stray, hstray⟩ := Option.isSome_iff_exists.mp hstray
    exact declined_of (State.askAnswer_full hneighbour hlisten hhold hi (by rw [hstrays, hstray]) hfull)
  · intro stray i hi hstray hroom hfree answered
    let reserved := heard.newExpected r stray.f f.source q
    have hanswer : heard.answerTo f = .accept i stray :=
      State.askAnswer_accepted hneighbour hlisten hhold hi (by rw [hstrays, hstray]) hroom hfree
    have hentries : (((heard.createEntry i reserved).offerTake f.source r q).bump .takesGiven).roster.entries =
        heard.roster.entries.set i (some reserved) := by
      rw [State.bump_roster, State.offerTake_roster, State.createEntry_entries]
    refine ⟨_, hexec.trans (congrArg _ (State.receiveAsk_accept hanswer)), ?_, fun j hj => ?_, ?_, ?_, ?_, ?_, ?_⟩
    · rw [hentries, getElem_setSlot_self]
      simp only [reserved, State.newExpected, State.due, heard, State.dispatched_now, State.dispatched_par]
      rfl
    · rw [hentries, getElem_setSlot_ne _ _ hj]
    · rw [State.bump_roster, State.offerTake_roster, State.createEntry_pins, State.dispatched_pins]
    · rw [State.occupancy, hentries]
      exact heldCount_set_some (lowestFree_some hfree) _
    · rw [State.bump_strays, State.offerTake_strays, State.createEntry_strays, hstrays]
      exact .remove ..
    · rw [State.bump_steer, State.offerTake_steer, State.createEntry_steer, State.dispatched_steer]
      exact .removeRefuse ..
    · refine (State.accepted_others ..).trans ?_
      rw [State.dispatched_offerTake]

end Sys2Proof.Machine

/-! ## A neighbour's HOMED taken (R57, R124, R130 to R132) -/

namespace Sys2Proof.Machine

theorem EntryRemoved.from_same {s s' u : State} {i : Fin 64} {r : Radio} (h : EntryRemoved s' u i r)
    (hr : s'.roster = s.roster) (hh : s'.hearing = s.hearing) : EntryRemoved s u i r where
  pins := by rw [← hr]; exact h.pins
  position := h.position
  others := by rw [← hr]; exact h.others
  occupancy := by rw [h.occupancy, State.occupancy, hr]; rfl
  neighbours := by rw [← hh]; exact h.neighbours
  pruned := by rw [← hh]; exact h.pruned
  free := by rw [← hh]; exact h.free

/-- Without a departure the removal of an entry concerns the roster and the hearing table alone (R48, R85). -/
theorem State.removeEntry_simple_others {s : State} {i : Fin 64} {e : RosterEntry} (he : s.roster.entries[i] = some e)
    (hs : e.state = .homed ∨ e.state = .expected) :
    s.removeEntry i = { s with roster := (s.removeEntry i).roster, hearing := (s.removeEntry i).hearing } := by
  obtain ⟨hnego, hsteer⟩ := State.removeEntry_simple he hs
  apply State.eq_of_blocks
  case h7 => exact hnego
  case h8 => exact hsteer
  all_goals simp

/-- A target site is the site of a departure record. -/
theorem State.departureIndex_of_targetSite {s : State} {r : Radio} {site : Byte} (h : s.targetSite r = some site) :
    (s.departureIndex r).isSome = true := by
  obtain ⟨p, hp, -⟩ := Option.bind_eq_some_iff.mp h
  rw [hp]; rfl

/-! ### By the state of the radio's entry -/

section
variable {s : State} {f : LinkFrame} {i : Fin 64} {e : RosterEntry} (hi : s.rosterIndex (radioAt f.body 0) = some i)
  (he : s.roster.entries[i] = some e)
include hi he

theorem State.receiveHomed_expected (hstate : e.state = .expected) : s.receiveHomed f = s.removeEntry i := by
  simp only [State.receiveHomed, hi, he, hstate]

theorem State.receiveHomed_confirmed (hstate : e.state = .leaving)
    (htarget : s.targetSite (radioAt f.body 0) = some f.source) :
    s.receiveHomed f = ((s.bump .handoversConfirmed).gone i (radioAt f.body 0) f.source .confirmed).arbiter := by
  have hrecord : ((s.bump .handoversConfirmed).departureIndex (radioAt f.body 0)).isSome = true :=
    State.departureIndex_of_targetSite (s := s) htarget
  simp only [State.receiveHomed, hi, he, hstate, htarget, if_true, State.depart_eq, hrecord]

theorem State.receiveHomed_conflict (hstate : e.state = .homed ∨ e.state = .asking
      ∨ (e.state = .leaving ∧ s.targetSite (radioAt f.body 0) ≠ some f.source)) :
    s.receiveHomed f = s.conflict i e f.source (countOfByte (byteAt f.body 3)) := by
  rcases hstate with hstate | hstate | ⟨hstate, htarget⟩
  · simp only [State.receiveHomed, hi, he, hstate]
  · simp only [State.receiveHomed, hi, he, hstate]
  · simp only [State.receiveHomed, hi, he, hstate, if_neg htarget]

end

theorem yieldOutcome_eq (e : RosterEntry) :
    yieldOutcome e = if e.state = .homed ∧ e.count ≠ none then .superseded else .elsewhere := by
  simp only [yieldOutcome, Option.isSome_iff_ne_none]

theorem homedBody_eq (e : RosterEntry) :
    homedBody e = radioBytes e.radio ++ [countByte e.count, match e.arrival with | some a => a.origin | none => 0] := by
  unfold homedBody
  cases e.arrival <;> rfl

/-- Settles O43: a HOMED by the state of the radio's entry, the conflict test by what it decides. -/
theorem homedIsTakenByEntryState : Obligations.HomedIsTakenByEntryState := by
  intro s f rest hreset hrx hrunning hkind hdest r c heard
  have hexec := exec_dispatch_homed hreset hrx hrunning hkind hdest
  have hnego : heard.nego = s.nego := State.dispatched_nego ..
  have hsteer : heard.steer = s.steer := State.dispatched_steer ..
  have hnow : heard.now = s.now := State.dispatched_now ..
  have htargets : heard.targetSite r = s.targetSite r := State.dispatched_targetSite ..
  refine ⟨fun hnone => ?_, fun i e hi he hradio => ⟨fun hstate => ?_, fun hstate htarget => ?_, fun hstate => ?_⟩⟩
  · rw [hexec, State.receiveHomed, hnone]
  · have hremoved := State.removeEntry_removed he
    rw [hradio] at hremoved
    exact ⟨_, hexec.trans (congrArg _ (State.receiveHomed_expected hi he hstate)), hremoved,
      State.removeEntry_simple_others he (.inr hstate)⟩
  · let counted := heard.bump .handoversConfirmed
    have hentry : counted.roster.entries[i] = some e := he
    obtain ⟨hremoved, hdropped, hordered, hlast, hprevious⟩ := State.gone_spec hentry f.source .confirmed
    have hready := State.gone_noneAskReady hentry f.source .confirmed
    rw [hradio] at hremoved hdropped hordered hlast hprevious hready
    rw [← htargets] at htarget
    have hcounted : counted.port = { s.port with counters := s.port.counters.set 0 (saturate s.port.counters[0]) } := by
      rw [← State.dispatched_port s f rest]; rfl
    have hport : (counted.gone i r f.source .confirmed).port = counted.port := by rw [State.gone_others]
    refine ⟨_, _, hexec, .of_idle (State.receiveHomed_confirmed hi he hstate htarget) hready, hremoved.from_same rfl rfl, hdropped.from_same hnego, ?_, ?_, ?_, ?_, ?_⟩
    · rw [hordered, ← hsteer]; rfl
    · rw [hlast, ← hnow]; rfl
    · rw [hprevious, ← hnego]; rfl
    · rw [hport, hcounted]
    · refine (State.gone_others ..).trans ?_
      rw [hport]; rfl
  · rw [← htargets] at hstate
    have hconflict := hexec.trans (congrArg _ (State.receiveHomed_conflict hi he hstate))
    have hcount : countOfByte (byteAt f.body 3) = c := rfl
    rw [State.conflict, State.dispatched_ownSite, hcount] at hconflict
    refine ⟨fun hkeeps => ?_, fun hyields => ?_⟩
    · rw [if_pos hkeeps, State.announce, homedBody_eq, hradio] at hconflict
      exact hconflict
    · obtain ⟨hremoved, hdropped, hordered, hlast, hprevious⟩ := State.gone_spec he f.source (yieldOutcome e)
      have hready := State.gone_noneAskReady he f.source (yieldOutcome e)
      rw [hradio] at hremoved hdropped hordered hlast hprevious hready
      rw [if_neg (by rw [hyields]; exact Bool.false_ne_true), hradio] at hconflict
      refine ⟨heard.gone i r f.source (yieldOutcome e), _, hconflict, fun hrecord => .of_idle ?_ hready, fun hnone => ?_,
        hremoved, hdropped.from_same hnego, ?_, ?_, ?_, State.gone_others ..⟩
      · rw [State.depart_eq, if_pos (by rw [State.dispatched_departureIndex]; exact hrecord)]
      · rw [State.depart_eq, if_neg (by rw [State.dispatched_departureIndex, hnone]; exact Bool.false_ne_true)]
      · rw [hordered, hsteer]
      · rw [hlast, hnow, yieldOutcome_eq]
      · rw [hprevious, hnego]

end Sys2Proof.Machine

/-! ## The pin list, and FLUSH (R58, R59, R97, R194, R196, R197) -/

namespace Sys2Proof.Machine

/-! ### Whole frames on a READY port -/

theorem State.portReady_iff (s : State) :
    s.portReady = true ↔ s.resetHeld = false ∧ s.port.frame = none ∧ s.port.busy = false := by
  simp [State.portReady, and_assoc]

/-- A command without a reply, its frame long enough: 0x00 throughout, and the command's effect. -/
theorem State.whole_silent {s : State} {c : PortCommand} {n : Nat} (hready : s.portReady = true) (ht : c.inTable = true)
    (hreply : c.reply = noReply) (hlength : c.replyLength = 0) (hn : c.args.length ≤ n) :
    serve (State.portCommand c (.whole n)) s =
      .next (c.effect [] (s.withPort { s.port with mntDo := List.replicate (n + 1) 0x00 })) := by
  obtain ⟨hreset, hframe, hbusy⟩ := s.portReady_iff.mp hready
  rw [serve_high _ hreset, State.whole_ready hframe hbusy ht (by omega) fun f => by rw [hreply]; rfl, hreply]
  exact congrArg (fun m => Host.Outcome.next (c.effect [] (s.withPort { s.port with mntDo := m }))) (shiftedOut_nil ..)

/-! ### PIN and UNPIN (R58, R194) -/

theorem State.pinRadio_listed {s : State} {r : Radio} (h : r ∈ s.roster.pins) : s.pinRadio r = s := by
  rw [State.pinRadio, if_pos (List.contains_iff_mem.mpr h)]

theorem State.pinRadio_dropped {s : State} {r : Radio} (h : r ∉ s.roster.pins)
    (hdrop : r = 0 ∨ r = 16777215 ∨ 8 ≤ s.roster.pins.length) : s.pinRadio r = s.dropCommand := by
  have hinvalid : (!validRadio r || decide (Config.pinListSize ≤ s.roster.pins.length)) = true := by
    simp only [Bool.or_eq_true, Bool.not_eq_true', Bool.eq_false_iff, ne_eq, validRadio_iff, decide_eq_true_iff]
    have : Config.pinListSize = 8 := rfl
    tauto
  rw [State.pinRadio, if_neg (mt List.contains_iff_mem.mp h), if_pos hinvalid]

theorem State.pinRadio_added {s : State} {r : Radio} (h : r ∉ s.roster.pins) (hzero : r ≠ 0) (hall : r ≠ 16777215)
    (hroom : s.roster.pins.length < 8) :
    s.pinRadio r = (s.withRoster { s.roster with pins := s.roster.pins ++ [r] }).evalRadios fun x => x == r := by
  have hvalid : ¬(!validRadio r || decide (Config.pinListSize ≤ s.roster.pins.length)) = true := by
    have hv : validRadio r = true := (validRadio_iff r).mpr ⟨hzero, hall⟩
    have : ¬Config.pinListSize ≤ s.roster.pins.length := Nat.not_le.mpr hroom
    simp [hv, this]
  rw [State.pinRadio, if_neg (mt List.contains_iff_mem.mp h), if_neg hvalid]

theorem State.unpinRadio_unlisted {s : State} {r : Radio} (h : r ∉ s.roster.pins) : s.unpinRadio r = s := by
  rw [State.unpinRadio, if_neg (mt List.contains_iff_mem.mp h)]

theorem State.unpinRadio_removed {s : State} {r : Radio} (h : r ∈ s.roster.pins) :
    s.unpinRadio r =
      (s.withRoster { s.roster with pins := s.roster.pins.filter fun x => x != r }).evalRadios fun x => x == r := by
  rw [State.unpinRadio, if_pos (List.contains_iff_mem.mpr h)]

/-- A new pin list evaluates the HOMED entry of the radio concerned, and changes nothing else (R97). -/
theorem State.repinned_spec (s : State) (r : Radio) (pins : List Radio) :
    let t := (s.withRoster { s.roster with pins := pins }).evalRadios fun x => x == r
    t.roster.pins = pins
      ∧ (∀ i : Fin 64, s.roster.entries[i] = none → t.roster.entries[i] = none)
      ∧ (∀ (i : Fin 64) e, s.roster.entries[i] = some e → ∃ after, t.roster.entries[i] = some after
        ∧ (e.state = .homed ∧ e.radio = r → EvaluatedTo t e after) ∧ (¬(e.state = .homed ∧ e.radio = r) → after = e))
      ∧ t = { s with roster := t.roster } := by
  intro t
  have heval : Reevaluated (s.withRoster { s.roster with pins := pins }) t fun x => x = r :=
    (Reevaluated.evalRadios (fun x => x == r) rfl).congr fun _ => beq_iff_eq
  exact ⟨rfl, heval.free, heval.entry, rfl⟩

/-- Settles O52: both commands by what the list holds. -/
theorem pinListIsEdited : Obligations.PinListIsEdited := by
  intro s r n hready hn shown edited
  have hpin : exec (.pin r (.whole n)) s = .next (shown.pinRadio r) := State.whole_silent hready rfl rfl rfl hn
  have hunpin : exec (.unpin r (.whole n)) s = .next (shown.unpinRadio r) := State.whole_silent hready rfl rfl rfl hn
  refine ⟨fun h => ?_, fun h hdrop => ?_, fun h hzero hall hroom => ?_, fun h => ?_, fun h => ?_⟩
  · exact hpin.trans (congrArg _ (State.pinRadio_listed h))
  · exact hpin.trans (congrArg _ (State.pinRadio_dropped h hdrop))
  · exact ⟨_, hpin.trans (congrArg _ (State.pinRadio_added h hzero hall hroom)), State.repinned_spec shown r _⟩
  · exact hunpin.trans (congrArg _ (State.unpinRadio_unlisted h))
  · exact ⟨_, hunpin.trans (congrArg _ (State.unpinRadio_removed h)), State.repinned_spec shown r _⟩

/-! ### FLUSH (R196, R197) -/

/-- The link at the beginning of a flush: an abandoned transmission leaves a new quiet-since stamp where the channel is
quiet (R158, R170). -/
theorem Link.flushed_eq (now : Time) (listenOnly : Bool) (l : Link) :
    l.flushed now listenOnly =
      { l with
        rx := [], tx := []
        txState := if listenOnly then .muted else .idle
        quietSince := if l.txState = .sending ∧ l.lnkCd = false then some { time := now, old := false } else l.quietSince } := by
  unfold Link.flushed Link.dropKey Link.becomeQuiet
  by_cases hsending : l.txState = .sending
  · cases hcarrier : l.lnkCd <;> simp [hsending, hcarrier]
  · simp [hsending]

/-- Settles O53: a flush begun, refused, and completed. -/
theorem flushEmptiesTheTablesUntilComplete : Obligations.FlushEmptiesTheTablesUntilComplete := by
  have hflush {s : State} {n : Nat} (hready : s.portReady = true) : exec (.flush (.whole n)) s =
      .next (flushCommand.effect [] (s.withPort { s.port with mntDo := List.replicate (n + 1) 0x00 })) :=
    State.whole_silent hready rfl rfl rfl (Nat.zero_le n)
  refine ⟨fun s n hready hrunning => ?_, fun s n hready hrunning => ?_, fun s hreset hflushing => ?_⟩
  · let shown := s.withPort { s.port with mntDo := List.replicate (n + 1) 0x00 }
    have hbegun : flushCommand.effect [] shown = shown.beginFlush := if_pos (running_of_opState (s := shown) hrunning)
    refine ⟨_, (hflush hready).trans (congrArg _ hbegun), rfl, rfl, fun i => ?_, rfl, fun j => ?_, rfl, rfl, fun k => ?_,
      fun j => ?_, fun p => ?_, rfl, rfl, rfl, ?_, ?_, rfl⟩
    · simp [State.beginFlush]
    · simp [State.beginFlush]
    · simp [State.beginFlush, NeighbourRecord.forget, shown]
    · simp [State.beginFlush]
    · simp [State.beginFlush]
    · exact Link.flushed_eq ..
    · rfl
  · have hrefused : ¬(s.withPort { s.port with mntDo := List.replicate (n + 1) 0x00 }).running = true := by
      simpa [State.running] using hrunning
    exact (hflush hready).trans (congrArg _ (if_neg hrefused))
  · show execFlushComplete s = _
    rw [execFlushComplete, serve_high _ hreset, if_pos (by rw [hflushing]; rfl)]
    rfl

end Sys2Proof.Machine

/-! ## Strays, hearing entries and neighbours age out (R64, R78, R84, R86) -/

namespace Sys2Proof.Machine

theorem exec_strayAgeDeadline {s : State} {j : Fin 32} {e : StrayEntry} (hreset : s.resetHeld = false)
    (he : s.strays.entries[j] = some e) (hdue : e.ageDeadline = s.now) :
    exec (.strayAgeDeadline j) s =
      .next (s.withStrays { s.strays with entries := s.strays.entries.set j none }) := by
  show execStrayAgeDeadline j s = _
  rw [execStrayAgeDeadline, serve_high _ hreset, if_pos (by simp [reached, he, hdue])]

theorem exec_hearingExpiry {s : State} {j : Fin 128} {e : HearingEntry} (hreset : s.resetHeld = false)
    (he : s.hearing.table[j] = some e) (hdue : e.expiry = s.now) :
    exec (.hearingExpiry j) s =
      .next ((s.withHearing { s.hearing with table := s.hearing.table.set j none }).evalRadios fun r => r == e.radio) := by
  show execHearingExpiry j s = _
  rw [execHearingExpiry, serve_high _ hreset]
  simp only [he, hdue, beq_self_eq_true, if_true]

theorem exec_silenceDeadline {s : State} {n : Fin 8} (hreset : s.resetHeld = false)
    (hlive : s.hearing.neighbours[n].state = .live) (hdue : s.hearing.neighbours[n].silence = some s.now) :
    exec (.silenceDeadline n) s = .next (s.withHearing (s.hearing.makeSilent n)).evalAll := by
  show execSilenceDeadline n s = _
  rw [execSilenceDeadline, serve_high _ hreset, if_pos (by rw [hlive, hdue]; simp [reached])]

/-- Settles O29: one removal for each kind of entry, and the evaluation that its block asks for. -/
theorem straysHearingsAndNeighboursAgeOut : Obligations.StraysHearingsAndNeighboursAgeOut := by
  refine ⟨fun s j e hreset he hdue => exec_strayAgeDeadline hreset he hdue,
    fun s j e hreset he hdue => ⟨_, exec_hearingExpiry hreset he hdue, rfl, ?_, rfl⟩,
    fun s n hreset hlive hdue => ⟨_, exec_silenceDeadline hreset hlive hdue, rfl, fun j => ?_, .evalAll rfl, rfl⟩⟩
  · refine Reevaluated.congr (p := fun r => (r == e.radio) = true) ?_ fun _ => beq_iff_eq
    exact .evalRadios _ rfl
  · exact dropEntries_at _ _ j

end Sys2Proof.Machine

/-! ## The selection of a HEARD notice (R68) -/

namespace Sys2Proof.Machine

/-- What the first `n` members of a chain leave out stands behind `n` members. -/
theorem behind_take_of_pairwise {α : Type} {r : α → α → Prop} {l : List α} (hl : l.Pairwise r) {n : Nat} {a : α}
    (ha : a ∈ l) (hout : a ∉ l.take n) : (l.take n).length = n ∧ ∀ b ∈ l.take n, r b a := by
  rw [← List.take_append_drop n l] at ha hl
  have hrest : a ∈ l.drop n := (List.mem_append.mp ha).resolve_left hout
  have hlong : 0 < (l.drop n).length := List.length_pos_of_mem hrest
  refine ⟨?_, fun b hb => (List.pairwise_append.mp hl).2.2 b hb a hrest⟩
  rw [List.length_drop] at hlong
  exact List.length_take_of_le (by omega)

theorem qualifies_iff (floor : Nat) (e : StrayEntry) :
    qualifies floor e = true ↔ floor ≤ (e.f + 8) / 16 ∧ e.reported = false := by
  show _ ↔ floor ≤ ownLevel e.f ∧ e.reported = false
  simp [qualifies]

/-- The walk meets every position. -/
theorem StrayTracker.mem_walk (t : StrayTracker) (j : Fin 32) : j ∈ t.walk :=
  List.mem_map.mpr ⟨j - t.cursor, List.mem_finRange _, by abel⟩

/-- The walk meets the positions in the order of their distance from the cursor. -/
theorem StrayTracker.walk_ordered (t : StrayTracker) :
    t.walk.Pairwise fun a b => (a - t.cursor).val < (b - t.cursor).val := by
  refine List.pairwise_map.mpr ((List.pairwise_lt_finRange 32).imp fun {a b} hab => ?_)
  rwa [add_sub_cancel_left, add_sub_cancel_left]

/-- Settles O30: the walk is ordered and complete, and the selection is the first six of those that qualify. -/
theorem selectionTakesFirstSixOfTheWalk : Obligations.SelectionTakesFirstSixOfTheWalk := by
  intro t floor fits taken
  let qualifying := t.walk.filter fun j => t.entries[j].any (qualifies floor)
  have hfits (j : Fin 32) : j ∈ qualifying ↔ fits j := by
    simp only [qualifying, fits, List.mem_filter, t.mem_walk, true_and, Option.any_eq_true, qualifies_iff]
  have hordered : qualifying.Pairwise fun a b => (a - t.cursor).val < (b - t.cursor).val := t.walk_ordered.filter _
  exact ⟨List.length_take_le _ _, hordered.sublist (List.take_sublist _ _),
    fun j hj => (hfits j).mp (List.mem_of_mem_take hj),
    fun j hj hout => behind_take_of_pairwise hordered ((hfits j).mpr hj) hout⟩

end Sys2Proof.Machine

/-! ## HEARD notices and presence notices (R66, R67, R69, R70) -/

namespace Sys2Proof.Machine

/-! ### HEARD frames offered (R156) -/

/-- An offer changes the link, and the port by its count. -/
theorem State.offer_eq (dest : Byte) (kind : FrameKind) (body : List Byte) (s : State) :
    s.offer dest kind body =
      { s with link := (s.offer dest kind body).link, port := (s.offer dest kind body).port } := by
  apply State.eq_of_blocks <;> simp

/-- A HEARD frame is accepted where none waits and the queue has room. -/
theorem Link.verdict_heard_accepted {l : Link} (hnone : ∀ x ∈ l.tx, x.frame.kind ≠ .heard) (hroom : l.tx.length < 16)
    (hmuted : l.txState ≠ .muted) : l.verdict true .heard = .accepted := by
  have hheard : (l.tx.any fun x => x.frame.isHeard) = false := by simpa [LinkFrame.isHeard] using hnone
  have hfits : ¬Config.linkQueueSize ≤ l.tx.length := Nat.not_le.mpr hroom
  simp [Link.verdict, hmuted, hheard, hfits]

/-- A full queue discards a HEARD frame. -/
theorem Link.verdict_heard_full {l : Link} (hfull : 16 ≤ l.tx.length) (running : Bool) :
    l.verdict running .heard = .discarded := by
  have hfull : Config.linkQueueSize ≤ l.tx.length := hfull
  simp [Link.verdict, hfull]

theorem Link.offer_discarded {l : Link} {running : Bool} {f : LinkFrame} (h : l.verdict running f.kind = .discarded)
    (now : Time) (idleGap : Nat) : l.offer now idleGap running f = l := by
  rw [Link.offer, h]

/-! ### Entries marked reported (R69) -/

/-- A repeatable change made at each of some positions, read at one position. -/
theorem getElem_foldl_updateAt {α : Type} {n : Nat} {f : α → α} (hf : ∀ e, f (f e) = f e) (taken : List (Fin n))
    (v : Vector (Option α) n) (j : Fin n) :
    (taken.foldl (fun v k => updateAt v k f) v)[j] = v[j].map fun e => if j ∈ taken then f e else e := by
  induction taken generalizing v with
  | nil => simp
  | cons k taken ih =>
    rw [List.foldl_cons, ih, getElem_updateAt]
    by_cases hjk : j = k
    · subst hjk
      cases v[j] <;> simp [hf]
    · simp [hjk]

theorem StrayTracker.markReported_at (taken : List (Fin 32)) (t : StrayTracker) (j : Fin 32) :
    (t.markReported taken).entries[j] =
      t.entries[j].map fun e => if j ∈ taken then { e with reported := true } else e :=
  getElem_foldl_updateAt (f := fun e : StrayEntry => { e with reported := true }) (fun _ => rfl) taken t.entries j

theorem StrayTracker.markReported_cursor {taken : List (Fin 32)} {last : Fin 32} (h : taken.getLast? = some last)
    (t : StrayTracker) : (t.markReported taken).cursor = last + 1 := by
  rw [StrayTracker.markReported, h]; rfl

/-! ### What an expiry composes (R67, R69, R70) -/

theorem State.mayCompose_iff (s : State) :
    s.mayCompose = true ↔
      s.loader.opState = .running ∧ s.port.listenOnly = false ∧ ∀ x ∈ s.link.tx, x.frame.kind ≠ .heard := by
  simp [State.mayCompose, State.running, LinkFrame.isHeard, and_assoc]

theorem State.presenceDue_iff (s : State) :
    s.presenceDue = true ↔ s.link.lastSent = none
      ∨ ∃ m, s.link.lastSent = some m ∧ (m.old = true ∨ s.par .presencePeriod * 100 ≤ (s.now - m.time).toNat) := by
  unfold State.presenceDue
  show _ ↔ _ ∨ ∃ m : MarkedStamp, _ ∧ (m.old = true ∨ s.par .presencePeriod * 100 ≤ elapsed s.now m.time)
  cases s.link.lastSent <;> simp

theorem State.composeNotice_barred {s : State} (h : s.mayCompose ≠ true) : s.composeNotice = s := by
  simp [State.composeNotice, h]

theorem State.composeNotice_heard {s : State} (h : s.mayCompose = true)
    (htaken : s.strays.selection (s.par .reportFloor) ≠ []) :
    s.composeNotice = s.composeHeard (s.strays.selection (s.par .reportFloor)) := by
  simp [State.composeNotice, h, htaken]

theorem State.composeNotice_empty {s : State} (h : s.mayCompose = true)
    (htaken : s.strays.selection (s.par .reportFloor) = []) :
    s.composeNotice = if s.presenceDue then s.offer 0 .heard (heardBody []) else s := by
  simp [State.composeNotice, h, htaken]

theorem State.composeHeard_accepted {s : State} (hrunning : s.running = true) (h : s.link.verdict true .heard = .accepted)
    (taken : List (Fin 32)) :
    s.composeHeard taken =
      (s.offer 0 .heard (heardBody (s.strays.pairs taken))).withStrays (s.strays.markReported taken) := by
  simp [State.composeHeard, State.accepts, hrunning, h]

theorem State.composeHeard_discarded {s : State} (h : s.link.verdict s.running .heard = .discarded)
    (taken : List (Fin 32)) : s.composeHeard taken = s.offer 0 .heard (heardBody (s.strays.pairs taken)) := by
  simp [State.composeHeard, State.accepts, h]

/-! ### The expiry (R66) -/

theorem State.advanceHearing_eq {s : State} {d : Time} (hd : s.strays.hearingDeadline = some d) :
    s.advanceHearing =
      { s with
        strays := { s.strays with hearingDeadline := some (d + BitVec.ofNat 32 (s.par .hearingPeriod * 10)) } } := by
  rw [State.advanceHearing, hd]; rfl

theorem exec_hearingPeriodExpiry {s : State} (hreset : s.resetHeld = false)
    (hdue : s.strays.hearingDeadline = some s.now) :
    exec .hearingPeriodExpiry s = .next s.advanceHearing.composeNotice := by
  show execHearingPeriodExpiry s = _
  rw [execHearingPeriodExpiry, serve_high _ hreset, if_pos (by simp [reached, hdue])]

/-- Settles O31: the deadline advanced, then a notice by what the conditions, the selection and the queue allow. -/
theorem hearingPeriodSendsNotices : Obligations.HearingPeriodSendsNotices := by
  intro s hreset hdue on may taken quiet pairs notice presence
  let advanced : State := { s with strays := on }
  have hexec : exec .hearingPeriodExpiry s = .next advanced.composeNotice := by
    rw [exec_hearingPeriodExpiry hreset hdue, State.advanceHearing_eq hdue]
  have hmay : advanced.mayCompose = true ↔ may := advanced.mayCompose_iff
  have hquiet : advanced.presenceDue = true ↔ quiet := advanced.presenceDue_iff
  have hoffer (body : List Byte) : advanced.offer 0 .heard body =
      { s with strays := on, link := (s.offer 0 .heard body).link, port := (s.offer 0 .heard body).port } := by
    obtain ⟨hlink, hport⟩ := State.offer_congr (s := s) (u := advanced) rfl rfl rfl rfl 0 .heard body
    rw [State.offer_eq, hlink, hport]
  have hcompose (h : may) (htaken : taken ≠ []) :
      exec .hearingPeriodExpiry s = .next (advanced.composeHeard taken) := by
    rw [hexec, State.composeNotice_heard (hmay.mpr h) htaken]; rfl
  refine ⟨fun h => ?_, fun h htaken hq => ?_, fun h htaken hroom hmuted => ?_, fun h htaken hfull => ?_⟩
  · rw [hexec]
    by_cases hm : may
    · obtain ⟨htaken, hq⟩ := h.resolve_left (not_not_intro hm)
      rw [State.composeNotice_empty (hmay.mpr hm) htaken, if_neg (mt hquiet.mp hq)]
    · rw [State.composeNotice_barred (mt hmay.mp hm)]
  · rw [hexec, State.composeNotice_empty (hmay.mpr h) htaken, if_pos (hquiet.mpr hq)]
    exact congrArg _ (hoffer _)
  · have ⟨hrunning, _, hnone⟩ := h
    have haccepted : advanced.link.verdict true .heard = .accepted := Link.verdict_heard_accepted hnone hroom hmuted
    refine ⟨_, hcompose h htaken, ?_⟩
    rw [State.composeHeard_accepted (running_of_opState (s := advanced) hrunning) haccepted, hoffer]
    exact ⟨rfl, rfl, fun last hlast => StrayTracker.markReported_cursor hlast on,
      fun j => StrayTracker.markReported_at taken on j⟩
  · have hdiscarded (running : Bool) : s.link.verdict running .heard = .discarded := Link.verdict_heard_full hfull running
    have hlink (body : List Byte) : (s.offer 0 .heard body).link = s.link := by
      rw [State.offer_link, Link.offer_discarded (hdiscarded _)]
    rw [hcompose h htaken, State.composeHeard_discarded (s := advanced) (hdiscarded _), hoffer, hlink]
    rfl

end Sys2Proof.Machine

/-! ## The end of a transmission (R72, R157, R158, R162) -/

namespace Sys2Proof.Machine

theorem Link.becomeQuiet_eq (now : Time) (l : Link) :
    l.becomeQuiet now = { l with quietSince := if l.lnkCd then l.quietSince else some { time := now, old := false } } := by
  unfold Link.becomeQuiet
  split <;> rfl

/-- A channel that has never been quiet has been so for no idle gap. -/
theorem Link.quietFor_unquiet {l : Link} (h : l.quietSince = none) (now : Time) (t : Nat) : l.quietFor now t = false := by
  rw [Link.quietFor, h]

/-- A channel quiet only since now has been so for no idle gap but 0. -/
theorem Link.quietFor_fresh {l : Link} {now : Time} (h : l.quietSince = some { time := now, old := false }) {t : Nat}
    (ht : t ≠ 0) : l.quietFor now t = false := by
  simp [Link.quietFor, h, elapsed, ht]

theorem Link.endSpacing_idle {l : Link} (h : l.tx = []) (now : Time) (idleGap : Nat) :
    l.endSpacing now idleGap = { l with txState := .idle } := by
  simp [Link.endSpacing, h]

/-- A frame that waits is deferred where the channel has not been quiet for the idle gap. -/
theorem Link.endSpacing_defers {l : Link} (h : l.tx ≠ []) {now : Time} {idleGap : Nat}
    (hquiet : l.quietFor now idleGap = false) : l.endSpacing now idleGap = { l with txState := .defer none } := by
  rw [Link.endSpacing, if_neg (by simpa using h), Link.enterDefer]
  exact if_neg (ne_true_of_eq_false hquiet)

theorem Link.sent_eq (now : Time) (spacing idleGap : Nat) (l : Link) :
    l.sent now spacing idleGap =
      let spaced : Link :=
        { l with
          tx := l.tx.filter fun x => !x.keyed
          lastSent := some { time := now, old := false }
          quietSince := if l.lnkCd then l.quietSince else some { time := now, old := false }
          txState := .spacing (after now spacing) }
      if spacing = 0 then spaced.endSpacing now idleGap else spaced := by
  rw [Link.sent, Link.becomeQuiet_eq]

theorem exec_sentReport {s : State} (hreset : s.resetHeld = false) (hsending : s.link.txState = .sending) :
    exec .sentReport s = .next (s.withLink (s.link.sent s.now (s.par .txSpacing) (s.par .idleGap))) := by
  show execSentReport s = _
  rw [execSentReport, serve_high _ hreset, if_pos hsending]

/-- Settles O36: the spacing runs, or ends at once by what waits and by how long the channel has been quiet. -/
theorem sentReportEndsTransmission : Obligations.SentReportEndsTransmission := by
  intro s hreset hsending spaced
  have hsent : exec .sentReport s = .next (s.withLink
      (if s.par .txSpacing = 0 then spaced.endSpacing s.now (s.par .idleGap) else spaced)) := by
    rw [exec_sentReport hreset hsending, Link.sent_eq]; rfl
  have hended (hzero : s.par .txSpacing = 0) :
      exec .sentReport s = .next (s.withLink (spaced.endSpacing s.now (s.par .idleGap))) := by
    rw [hsent, if_pos hzero]
  refine ⟨fun hrun => ?_, fun hzero hempty => ?_, fun hzero hwaits hlow hgap => ?_, fun hzero hwaits hhigh hnone => ?_⟩
  · rw [hsent, if_neg hrun]; rfl
  · rw [hended hzero, Link.endSpacing_idle hempty]; rfl
  · have hstamp : spaced.quietSince = some { time := s.now, old := false } := by simp [spaced, hlow]
    rw [hended hzero, Link.endSpacing_defers hwaits (Link.quietFor_fresh hstamp hgap)]; rfl
  · have hstamp : spaced.quietSince = none := by simp [spaced, hhigh, hnone]
    rw [hended hzero, Link.endSpacing_defers hwaits (Link.quietFor_unquiet hstamp ..)]; rfl

end Sys2Proof.Machine

/-! ## The head frame dispatched (R77, R99, R154) -/

namespace Sys2Proof.Machine

theorem exec_dispatch_head {s : State} {f : LinkFrame} {rest : List LinkFrame} (hreset : s.resetHeld = false)
    (hrx : s.link.rx = f :: rest) :
    exec .dispatch s = .next (if s.running then s.dispatchFrame f rest else s) := by
  show execDispatch s = _
  rw [execDispatch, serve_high _ hreset, hrx]

theorem exec_dispatch_running {s : State} {f : LinkFrame} {rest : List LinkFrame} (hreset : s.resetHeld = false)
    (hrx : s.link.rx = f :: rest) (hrunning : s.loader.opState = .running) :
    exec .dispatch s = .next (s.dispatchFrame f rest) := by
  rw [exec_dispatch_head hreset hrx, if_pos (running_of_opState hrunning)]

/-- A frame from no configured neighbour makes nobody LIVE. -/
theorem State.dispatched_stranger {s : State} {f : LinkFrame} (hsource : s.hearing.neighbourOf f.source = none)
    (rest : List LinkFrame) : s.dispatched f rest = s.withLink { s.link with rx := rest } := by
  rw [State.dispatched, hsource]; rfl

/-- A frame from neighbour `n` makes it LIVE, with an evaluation where it was not (R77, R99). -/
theorem State.dispatched_neighbour {s : State} {f : LinkFrame} {n : Fin 8}
    (hsource : s.hearing.neighbourOf f.source = some n) (rest : List LinkFrame) :
    s.dispatched f rest =
      if s.hearing.neighbours[n].state = .live then (s.withLink { s.link with rx := rest }).hearFrom n
      else ((s.withLink { s.link with rx := rest }).hearFrom n).evalAll := by
  rw [State.dispatched, hsource]; rfl

/-- A frame for another site stops after the liveness of its source (R154, step 3). -/
theorem State.dispatchFrame_elsewhere {s : State} {f : LinkFrame} (hall : f.dest ≠ 0)
    (hown : f.dest ≠ byteAt s.loader.image 1) (rest : List LinkFrame) : s.dispatchFrame f rest = s.dispatched f rest := by
  let taken := s.withLink { s.link with rx := rest }
  have haddressed : ¬taken.addressed f = true := fun h => ((taken.addressed_iff f).mp h).elim hall hown
  unfold State.dispatchFrame
  cases hsource : s.hearing.neighbourOf f.source with
  | none =>
    show taken.dispatchStranger f = _
    rw [State.dispatched_stranger hsource, State.dispatchStranger, if_pos (by simpa using haddressed)]
  | some n =>
    show taken.dispatchNeighbour n f = _
    rw [State.dispatched_neighbour hsource, State.dispatchNeighbour, if_neg fun h => haddressed h.2]
    dsimp only
    rw [if_neg haddressed]
    by_cases hlive : s.hearing.neighbours[n].state = .live
    · rw [if_pos hlive, if_neg (by simpa [taken] using hlive)]
    · rw [if_neg hlive, if_pos (by simpa [taken] using hlive)]

/-- A HEARD from no configured neighbour is discarded and counted (R77). -/
theorem State.dispatchFrame_strangeHeard {s : State} {f : LinkFrame}
    (hsource : s.hearing.neighbourOf f.source = none) (hdest : f.dest = 0 ∨ f.dest = byteAt s.loader.image 1)
    (hkind : f.kind = .heard) (rest : List LinkFrame) :
    s.dispatchFrame f rest = (s.withLink { s.link with rx := rest }).bump .linkDiscarded := by
  let taken := s.withLink { s.link with rx := rest }
  have haddressed : taken.addressed f = true := (taken.addressed_iff f).mpr hdest
  rw [State.dispatchFrame, hsource]
  show taken.dispatchStranger f = _
  rw [State.dispatchStranger, if_neg (by simp [haddressed]), if_pos hkind]

/-- The liveness of the source reaches hearing table and roster alone. -/
theorem State.dispatched_frame (s : State) (f : LinkFrame) (rest : List LinkFrame) :
    s.dispatched f rest =
      { s with
        link := { s.link with rx := rest }
        hearing := (s.dispatched f rest).hearing
        roster := (s.dispatched f rest).roster } := by
  rcases s.dispatched_cases f rest with h | ⟨n, h | h⟩ <;> rw [h] <;> rfl

theorem State.dispatched_hearing {s : State} {f : LinkFrame} {n : Fin 8}
    (hsource : s.hearing.neighbourOf f.source = some n) (rest : List LinkFrame) :
    (s.dispatched f rest).hearing = s.hearing.makeLive s.now (s.par .silenceTime * 100) n := by
  rw [State.dispatched_neighbour hsource]
  split
  · rfl
  · rw [State.evalAll_hearing]; rfl

/-- The HOMED entries are evaluated exactly where the neighbour was not LIVE (R77, R99). -/
theorem Reevaluated.dispatched {s : State} {f : LinkFrame} {n : Fin 8}
    (hsource : s.hearing.neighbourOf f.source = some n) (rest : List LinkFrame) :
    Reevaluated s (s.dispatched f rest) fun _ => s.hearing.neighbours[n].state ≠ .live := by
  rw [State.dispatched_neighbour hsource]
  by_cases hlive : s.hearing.neighbours[n].state = .live
  · rw [if_pos hlive]
    exact .none (by rfl) fun _ => not_not_intro hlive
  · rw [if_neg hlive]
    exact Reevaluated.congr (.evalAll rfl) fun _ => (iff_true_intro hlive).symm

/-- Settles O37: by the operating state, the source, the destination and the kind. -/
theorem dispatchRoutesTheHeadFrame : Obligations.DispatchRoutesTheHeadFrame := by
  intro s f rest hreset hrx own taken
  refine ⟨fun hidle => ?_, fun hrunning n hsource hall hown => ?_, fun hrunning hsource =>
    ⟨fun hall hown => ?_, fun hdest => ⟨fun hkind => ?_, fun hkind => ?_⟩⟩⟩
  · rw [exec_dispatch_head hreset hrx, if_neg (by simpa [State.running] using hidle)]
  · refine ⟨s.dispatched f rest, ?_, State.dispatched_hearing hsource rest, .dispatched hsource rest,
      s.dispatched_frame f rest, rfl⟩
    rw [exec_dispatch_running hreset hrx hrunning, State.dispatchFrame_elsewhere hall hown]
  · rw [exec_dispatch_running hreset hrx hrunning, State.dispatchFrame_elsewhere hall hown,
      State.dispatched_stranger hsource]; rfl
  · rw [exec_dispatch_running hreset hrx hrunning, State.dispatchFrame_strangeHeard hsource hdest hkind]; rfl
  · rw [exec_dispatch_negotiated hreset hrx hrunning hkind hdest, State.dispatched_stranger hsource]; rfl

end Sys2Proof.Machine

/-! ## Field deadlines evaluate the entry (R40, R41, R47, R98, R109) -/

namespace Sys2Proof.Machine

/-- A due event that changes one field: the entry so changed is evaluated, and nothing but the roster changes. -/
theorem serve_fieldDeadline {s : State} {i : Fin 64} {e : RosterEntry} (hreset : s.resetHeld = false)
    (he : s.roster.entries[i] = some e) {due : State → RosterEntry → Bool} (hdue : due s e = true)
    (f : RosterEntry → RosterEntry) :
    ∃ t, serve (fun s => s.whenDue i (due s) fun _ s => (s.updateEntry i f).evalAt i) s = .next t
      ∧ EntryBecomes s t i (f e) ∧ t = { s with roster := t.roster } :=
  ⟨_, (serve_high _ hreset).trans (congrArg _ (State.whenDue_due he hdue _)), .update_eval he f, rfl⟩

theorem reached_iff (now : Time) (deadline : Option Time) : reached now deadline = true ↔ deadline = some now := beq_iff_eq

theorem State.guardEnds_of_due {s : State} {e : RosterEntry} {a : Arrival} (harrival : e.arrival = some a)
    (hruns : a.guardRuns = true) (hdue : s.now = a.stamp + BitVec.ofNat 32 (s.par .pingPongGuard * 100)) :
    s.guardEnds e = true := by
  rw [State.guardEnds, harrival, Option.any_some, hruns, Bool.true_and]
  exact beq_iff_eq.mpr hdue

/-- Settles O24: each of the four deadlines is a due event that changes its one field. -/
theorem fieldDeadlinesReevaluateTheEntry : Obligations.FieldDeadlinesReevaluateTheEntry := by
  intro s i e hreset he
  refine ⟨fun hdue => ?_, fun hdue => ?_, fun a harrival hruns hdue => ?_, fun x hx hdue => ?_⟩
  · exact serve_fieldDeadline hreset he (due := fun s e => reached s.now e.callActive) ((reached_iff ..).mpr hdue) _
  · exact serve_fieldDeadline hreset he (due := fun s e => reached s.now e.emergency) ((reached_iff ..).mpr hdue) _
  · have hends := serve_fieldDeadline hreset he (due := State.guardEnds) (State.guardEnds_of_due harrival hruns hdue)
      fun e => { e with arrival := e.arrival.map fun a => { a with guardRuns := false } }
    rw [harrival] at hends
    exact hends
  · have hreached : e.exclusion.map Exclusion.deadline = some s.now := by rw [hx, Option.map_some, hdue]
    exact serve_fieldDeadline hreset he (due := fun s e => reached s.now (e.exclusion.map Exclusion.deadline))
      ((reached_iff ..).mpr hreached) _

end Sys2Proof.Machine

/-! ## SET HOLD and LISTEN ONLY (R99, R167, R168, R193, R195) -/

namespace Sys2Proof.Machine

/-! ### The arguments -/

theorem holdModeOf_of_mem {b : Byte} {m : HoldMode}
    (h : (b, m) ∈ [((0 : Byte), HoldMode.opened), (1, HoldMode.hold), (2, HoldMode.closed)]) : holdModeOf b = some m := by
  simp only [List.mem_cons, List.not_mem_nil, or_false, Prod.mk.injEq] at h
  obtain ⟨rfl, rfl⟩ | ⟨rfl, rfl⟩ | ⟨rfl, rfl⟩ := h <;> rfl

theorem holdModeOf_above {b : Byte} (h : 2 < b.toNat) : holdModeOf b = none := by
  unfold holdModeOf
  split
  case h_4 => rfl
  all_goals omega

theorem listenSettingOf_bit (on : Bool) : listenSettingOf (if on then 1 else 0) = some on := by cases on <;> rfl

theorem listenSettingOf_above {b : Byte} (h : 1 < b.toNat) : listenSettingOf b = none := by
  unfold listenSettingOf
  split
  case h_3 => rfl
  all_goals omega

/-! ### The effects -/

theorem holdCommand_sets {b : Byte} {m : HoldMode} (h : holdModeOf b = some m) (shown : List Byte) (s : State) :
    (holdCommand b).effect shown s = s.setHoldMode m := by
  simp only [holdCommand, h]

theorem holdCommand_dropped {b : Byte} (h : holdModeOf b = none) (shown : List Byte) (s : State) :
    (holdCommand b).effect shown s = s.dropCommand := by
  simp only [holdCommand, h]

theorem listenCommand_sets {b : Byte} {on : Bool} (h : listenSettingOf b = some on) {s : State} (hrunning : s.running = true)
    (shown : List Byte) : (listenCommand b).effect shown s = s.setListenOnly on := by
  simp only [listenCommand, h, hrunning, if_true]

/-- LISTEN ONLY is dropped for an argument that names no setting, and outside RUNNING (R195). -/
theorem listenCommand_dropped {b : Byte} {s : State} (h : listenSettingOf b = none ∨ s.running ≠ true)
    (shown : List Byte) : (listenCommand b).effect shown s = s.dropCommand := by
  simp only [listenCommand]
  split
  case h_1 on hon => exact if_neg (h.resolve_left (by simp [hon]))
  case h_2 => rfl

theorem State.setHoldMode_changed {m : HoldMode} {s : State} (h : s.port.hold ≠ m) :
    s.setHoldMode m = (s.withPort { s.port with hold := m }).evalAll := if_neg h

theorem State.setListenOnly_changed {on : Bool} {s : State} (h : s.port.listenOnly ≠ on) :
    s.setListenOnly on =
      ((s.withPort { s.port with listenOnly := on }).withLink (if on then s.link.mute s.now else s.link.unmute)).evalAll :=
  if_neg h

/-- Listen-only mutes the transmitter in every state of it, with a new quiet-since stamp on a quiet channel (R167). -/
theorem Link.mute_eq (now : Time) (l : Link) :
    l.mute now =
      { l with
        tx := [], txState := .muted
        quietSince := if l.lnkCd then l.quietSince else some { time := now, old := false } } := by
  rw [Link.mute, Link.becomeQuiet_eq]

/-- Settles O51: both commands by what the argument names and whether the setting is held already. -/
theorem holdAndListenOnlyAreSet : Obligations.HoldAndListenOnlyAreSet := by
  intro s b n hready hn shown dropped
  have hhold : exec (.setHold b (.whole n)) s = .next ((holdCommand b).effect [] shown) :=
    State.whole_silent hready rfl rfl rfl hn
  have hlisten : exec (.listenOnly b (.whole n)) s = .next ((listenCommand b).effect [] shown) :=
    State.whole_silent hready rfl rfl rfl hn
  refine ⟨fun m hm => ?_, fun habove => ?_, fun hdrop => ?_, fun hrunning on hb => ?_⟩
  · rw [hhold, holdCommand_sets (holdModeOf_of_mem hm)]
    refine ⟨fun hheld => congrArg _ (if_pos hheld), fun hchange => ?_⟩
    exact ⟨_, congrArg _ (State.setHoldMode_changed hchange), rfl, .evalAll rfl, rfl⟩
  · exact hhold.trans (congrArg _ (holdCommand_dropped (holdModeOf_above habove) ..))
  · have hnone : listenSettingOf b = none ∨ shown.running ≠ true :=
      hdrop.imp listenSettingOf_above fun hstate hrunning => hstate (by simpa [State.running] using hrunning)
    exact hlisten.trans (congrArg _ (listenCommand_dropped hnone _))
  · have hsetting : listenSettingOf b = some on := hb ▸ listenSettingOf_bit on
    rw [hlisten, listenCommand_sets hsetting (running_of_opState (s := shown) hrunning)]
    refine ⟨fun hheld => congrArg _ (if_pos hheld), fun hchange => ?_⟩
    refine ⟨_, congrArg _ (State.setListenOnly_changed hchange), rfl, .evalAll rfl, fun hoff => ?_, fun hon => ?_, rfl⟩
    · subst hoff; rfl
    · subst hon; exact Link.mute_eq ..

end Sys2Proof.Machine

/-! ## The conflict test (R131) -/

namespace Sys2Proof.Machine

/-- The distance from count `c` on to count `k`, modulo 16. -/
theorem count_distance (k c : BitVec 4) : (k - c).toNat = (k.toNat + 16 - c.toNat) % 16 := by
  rw [BitVec.toNat_sub]
  omega

/-- A known count is newer than an unknown one, and than one that lies 1 to 7 before it, modulo 16. -/
theorem claimNewer_iff (k c : Option (BitVec 4)) :
    claimNewer k c = true ↔
      ∃ a, k = some a ∧ (c = none ∨ ∃ b, c = some b ∧ 1 ≤ (a.toNat + 16 - b.toNat) % 16
        ∧ (a.toNat + 16 - b.toNat) % 16 ≤ 7) := by
  cases k with
  | none => simp [claimNewer]
  | some a =>
    cases c with
    | none => simp [claimNewer]
    | some b =>
      simp only [claimNewer, Bool.and_eq_true, decide_eq_true_eq, count_distance, Option.some.injEq, exists_eq_left',
        reduceCtorEq, false_or]

/-- Of two claims at most one is newer: a distance of 1 to 7 one way round the circle of 16 is one of 9 to 15 the other. -/
theorem claimNewer_asymm {k c : Option (BitVec 4)} (h : claimNewer k c = true) : claimNewer c k = false := by
  rw [Bool.eq_false_iff, Ne, claimNewer_iff]
  obtain ⟨a, rfl, rfl | ⟨b, rfl, hlow, hhigh⟩⟩ := (claimNewer_iff ..).mp h
  · simp
  · simp only [Option.some.injEq, exists_eq_left', reduceCtorEq, false_or]
    omega

theorem keepsHandset_of_newer (own other : Byte) {k c : Option (BitVec 4)} (h : claimNewer k c = true) :
    keepsHandset own other k c = true := by
  rw [keepsHandset, h, Bool.true_or]

theorem keepsHandset_of_older (own other : Byte) {k c : Option (BitVec 4)} (h : claimNewer c k = true) :
    keepsHandset own other k c = false := by
  rw [keepsHandset, claimNewer_asymm h, h]
  rfl

theorem keepsHandset_of_tie (own other : Byte) {k c : Option (BitVec 4)} (hk : claimNewer k c = false)
    (hc : claimNewer c k = false) : keepsHandset own other k c = decide (own.toNat < other.toNat) := by
  rw [keepsHandset, hk, hc, Bool.not_false, Bool.true_and, Bool.false_or]

/-- The other site, with the counts exchanged, decides the opposite. -/
theorem keepsHandset_swap {own other : Byte} (hsites : own ≠ other) (k c : Option (BitVec 4)) :
    keepsHandset other own c k = !keepsHandset own other k c := by
  cases hk : claimNewer k c with
  | true => rw [keepsHandset_of_newer own other hk, keepsHandset_of_older other own hk]; rfl
  | false =>
    cases hc : claimNewer c k with
    | true => rw [keepsHandset_of_older own other hc, keepsHandset_of_newer other own hc]; rfl
    | false =>
      have hnumbers : own.toNat ≠ other.toNat := fun h => hsites (BitVec.eq_of_toNat_eq h)
      rw [keepsHandset_of_tie own other hk hc, keepsHandset_of_tie other own hc hk, ← decide_not]
      exact decide_eq_decide.mpr (by omega)

theorem keepsHandset_iff (own other : Byte) (k c : Option (BitVec 4)) :
    keepsHandset own other k c = true ↔
      claimNewer k c = true ∨ (¬claimNewer k c = true ∧ ¬claimNewer c k = true ∧ own.toNat < other.toNat) := by
  cases hk : claimNewer k c with
  | true => simp [keepsHandset_of_newer own other hk]
  | false => simp [keepsHandset, hk]

/-- Settles O44: the exchanged test by which claim is newer, and each claim by the distance of its counts. -/
theorem conflictTestAgreesAtBothSites : Obligations.ConflictTestAgreesAtBothSites := by
  intro own other k c hsites
  refine ⟨?_, ?_⟩
  · rw [keepsHandset_swap hsites, Bool.not_eq_false']
  · intro newer
    rw [keepsHandset_iff, claimNewer_iff k c, claimNewer_iff c k]

end Sys2Proof.Machine

/-! ## The steer queue: strobes, MOVE orders, removals (R137 to R143) -/

namespace Sys2Proof.Machine

/-! ### The head and what is presented (R140) -/

/-- The six bytes of an order, written out (R140). -/
theorem SteerOrder.bytes_eq (o : SteerOrder) :
    o.bytes = [if o.kind = .move then 1 else 2, o.radio.extractLsb' 16 8, o.radio.extractLsb' 8 8,
      o.radio.extractLsb' 0 8, o.channel, o.site] := by
  obtain ⟨kind, _, _, _, _⟩ := o
  cases kind <;> rfl

/-- A head is presented again even where it is the one presented (R141). -/
theorem SteerQueue.present_again (head : SteerOrder) (rest : List SteerOrder) (q : SteerQueue) :
    (q.present true (head :: rest)).strRdy = true ∧ (q.present true (head :: rest)).strDat = head.bytes
      ∧ (q.present true (head :: rest)).presentations = q.presentations + 1 := ⟨rfl, rfl, rfl⟩

/-- The head of the queue is presented, and nothing while the queue is empty (R140). -/
structure SteerQueue.ShowsHead (q : SteerQueue) : Prop where
  empty : q.orders = [] → q.strRdy = false ∧ q.strDat = []
  head : ∀ head rest, q.orders = head :: rest → q.strRdy = true ∧ q.strDat = head.bytes

theorem presentationLaw_iff (s : State) : PresentationLaw s ↔ s.steer.ShowsHead := by
  unfold PresentationLaw
  split
  · next ho => exact ⟨fun h => ⟨fun _ => h, fun _ _ hc => by simp [ho] at hc⟩, fun h => h.empty ho⟩
  · next ho =>
    refine ⟨fun h => ⟨fun hc => by simp [ho] at hc, fun head rest hc => ?_⟩, fun h => h.head _ _ ho⟩
    rw [ho] at hc
    cases hc
    exact h

/-- A queue whose presentation has been made follows its head. -/
theorem SteerQueue.ShowsHead.present (again : Bool) (orders : List SteerOrder) (q : SteerQueue) :
    (q.present again orders).ShowsHead := by
  refine ⟨fun hempty => ?_, fun head rest hhead => ?_⟩
  · rw [SteerQueue.present_orders] at hempty
    subst hempty
    exact ⟨rfl, rfl⟩
  · rw [SteerQueue.present_orders] at hhead
    subst hhead
    cases again with
    | false =>
      obtain ⟨hready, hshown, -⟩ := SteerQueue.present_head head rest q
      exact ⟨hready, hshown⟩
    | true => exact ⟨rfl, rfl⟩

/-! ### Orders removed (R142, R143) -/

theorem SteerQueue.holds_iff (r : Radio) (q : SteerQueue) : q.holds r = true ↔ ∃ o ∈ q.orders, o.radio = r := by
  simp [SteerQueue.holds]

theorem SteerQueue.holds_eq_false_iff (r : Radio) (q : SteerQueue) :
    q.holds r = false ↔ ∀ o ∈ q.orders, o.radio ≠ r := by
  simp [SteerQueue.holds]

theorem SteerQueue.remove_of_not_held {r : Radio} {q : SteerQueue} (h : q.holds r = false) : q.remove r = q :=
  if_neg (by simp [h])

/-- The orders left are those of the other radios, whether or not one was held. -/
theorem SteerQueue.remove_orders (r : Radio) (q : SteerQueue) :
    (q.remove r).orders = q.orders.filter fun o => o.radio != r := by
  cases h : q.holds r with
  | true => exact (OrderRemoved.remove h).orders
  | false =>
    rw [SteerQueue.remove_of_not_held h]
    rw [SteerQueue.holds_eq_false_iff] at h
    exact (List.filter_eq_self.mpr fun o ho => by simpa using h o ho).symm

theorem SteerQueue.ShowsHead.remove {q : SteerQueue} (h : q.ShowsHead) (r : Radio) : (q.remove r).ShowsHead := by
  unfold SteerQueue.remove
  split
  · exact .present ..
  · exact h

theorem SteerQueue.ShowsHead.removeRefuse {q : SteerQueue} (h : q.ShowsHead) (r : Radio) :
    (q.removeRefuse r).ShowsHead := by
  unfold SteerQueue.removeRefuse
  split
  · exact h.remove r
  · exact h

/-! ### Orders admitted (R138, R139) -/

theorem SteerQueue.admitOrder_admission (o : SteerOrder) (q : SteerQueue) :
    (q.admitOrder o).admission = q.admission ++ [o.radio] :=
  SteerQueue.present_admission ..

theorem SteerQueue.offerMove_of_room {q : SteerQueue} (h : q.isFull = false) (o : SteerOrder) :
    q.offerMove o = q.admitOrder o := by
  simp [SteerQueue.offerMove, h]

/-- From a full queue the newest REFUSE goes, in orders and in admission, and the MOVE joins at the tail. -/
theorem SteerQueue.offerMove_displacing {q : SteerQueue} {r : Radio} (hfull : q.isFull = true)
    (hnewest : q.newestRefuse = some r) (o : SteerOrder) :
    (q.offerMove o).orders = (q.orders.filter fun x => x.radio != r) ++ [o]
      ∧ (q.offerMove o).admission = (q.admission.filter fun x => x != r) ++ [o.radio] := by
  simp only [SteerQueue.offerMove, hfull, hnewest, if_true]
  exact ⟨SteerQueue.present_orders .., SteerQueue.present_admission ..⟩

/-- The REFUSE after which, by admission, no other stands is the newest (R138). -/
theorem SteerQueue.newestRefuse_eq {q : SteerQueue} {newest : Radio} {before after : List Radio}
    (hadmission : q.admission = before ++ newest :: after)
    (hnewest : (q.orders.any fun x => x.radio == newest && x.kind == .refuse) = true)
    (hafter : ∀ x ∈ after, (q.orders.any fun y => y.radio == x && y.kind == .refuse) = false) :
    q.newestRefuse = some newest := by
  have hnone : after.reverse.find? (fun r => q.orders.any fun o => o.radio == r && o.kind == .refuse) = none :=
    List.find?_eq_none.mpr fun x hx => by simp [hafter x (List.mem_reverse.mp hx)]
  rw [SteerQueue.newestRefuse, hadmission, List.reverse_append, List.reverse_cons, List.append_assoc, List.find?_append,
    hnone, Option.none_or, List.singleton_append]
  exact List.find?_cons_of_pos hnewest

theorem SteerQueue.ShowsHead.offerMove (o : SteerOrder) (q : SteerQueue) : (q.offerMove o).ShowsHead := by
  unfold SteerQueue.offerMove
  split <;> exact .present ..

theorem SteerQueue.ShowsHead.offerRefuse {q : SteerQueue} (h : q.ShowsHead) (o : SteerOrder) :
    (q.offerRefuse o).ShowsHead := by
  unfold SteerQueue.offerRefuse
  split
  · exact h
  · exact .present ..

/-- Settles O40: the newest REFUSE is the one that the search from the newest admission finds; with room the order only
joins; a removal is that of R142. -/
theorem moveDisplacesTheNewestRefuse : Obligations.MoveDisplacesTheNewestRefuse := by
  refine ⟨fun s r newest n before after hlength hadmission hnewest hafter => ?_, fun s r n hroom => ?_,
    fun q r => ⟨?_, ?_⟩⟩
  · have hfull : s.steer.isFull = true := s.steer.isFull_iff.mpr hlength.ge
    have hfound := SteerQueue.newestRefuse_eq hadmission hnewest hafter
    obtain ⟨horders, hadmitted⟩ := SteerQueue.offerMove_displacing hfull hfound (s.moveOrder r n)
    have hdisplaces : s.steer.displaces = true := by simp [SteerQueue.displaces, hfull, hfound]
    have hport := s.offerMove_port r n
    rw [hdisplaces] at hport
    refine ⟨?_, ?_, ?_⟩
    · rw [State.offerMove_steer, horders]; rfl
    · rw [State.offerMove_steer, hadmitted]; rfl
    · apply State.eq_of_blocks
      case h11 => exact hport
      all_goals simp
  · obtain ⟨horders, hdisplaces⟩ := SteerQueue.offerMove_room hroom (s.moveOrder r n)
    have hnotFull : s.steer.isFull = false := Bool.eq_false_iff.mpr fun h => absurd (s.steer.isFull_iff.mp h) (by omega)
    have hport := s.offerMove_port r n
    rw [hdisplaces] at hport
    refine ⟨?_, ?_, ?_⟩
    · rw [State.offerMove_steer, horders]; rfl
    · rw [State.offerMove_steer, SteerQueue.offerMove_of_room hnotFull, SteerQueue.admitOrder_admission]; rfl
    · apply State.eq_of_blocks
      case h11 => exact hport
      all_goals simp
  · exact fun h => .remove ((q.holds_iff r).mpr h)
  · exact fun h => SteerQueue.remove_of_not_held ((q.holds_eq_false_iff r).mpr h)

/-! ### A strobe (R141) -/

theorem SteerQueue.strobe_of_not_ready {q : SteerQueue} (h : q.strRdy = false) : q.strobe = q := by
  unfold SteerQueue.strobe
  split
  · rfl
  · simp [h]

/-- The orders that a strobe leaves: the head goes at its last repeat, else to the tail with one less. -/
def afterStrobe (head : SteerOrder) (rest : List SteerOrder) : List SteerOrder :=
  if head.repeats ≤ 1 then rest else rest ++ [{ head with repeats := head.repeats - 1 }]

/-- The admissions that a strobe leaves: that of the head goes with it. -/
def admissionAfterStrobe (head : SteerOrder) (admission : List Radio) : List Radio :=
  if head.repeats ≤ 1 then admission.filter fun x => x != head.radio else admission

theorem SteerQueue.strobe_of_ready {q : SteerQueue} {head : SteerOrder} {rest : List SteerOrder} (hready : q.strRdy = true)
    (ho : q.orders = head :: rest) :
    q.strobe = { q with admission := admissionAfterStrobe head q.admission }.present true (afterStrobe head rest) := by
  simp only [SteerQueue.strobe, ho, hready, Bool.not_true, Bool.false_eq_true, if_false, Nat.sub_eq_zero_iff_le,
    afterStrobe, admissionAfterStrobe]
  split <;> rfl

theorem SteerQueue.ShowsHead.strobe {q : SteerQueue} (h : q.ShowsHead) : q.strobe.ShowsHead := by
  cases ho : q.orders with
  | nil => simpa [SteerQueue.strobe, ho] using h
  | cons head rest =>
    rw [SteerQueue.strobe_of_ready (h.head head rest ho).1 ho]
    exact .present ..

theorem exec_takenStrobe {s : State} (h : s.resetHeld = false) :
    exec .takenStrobe s = .next (s.withSteer s.steer.strobe) :=
  serve_high (fun s => s.withSteer s.steer.strobe) h

/-- Settles O46: with STR_RDY deasserted nothing happens, and else the head loses its repeat and the next is presented. -/
theorem strobeCountsOneRepeat : Obligations.StrobeCountsOneRepeat := by
  intro s hhigh
  refine ⟨fun hidle => ?_, fun head rest hready ho => ⟨_, exec_takenStrobe hhigh, ?_⟩⟩
  · rw [exec_takenStrobe hhigh, SteerQueue.strobe_of_not_ready hidle]; rfl
  · rw [State.withSteer_steer, SteerQueue.strobe_of_ready hready ho]
    simp only [SteerQueue.present_orders, SteerQueue.present_admission]
    refine ⟨rfl, rfl, fun hempty => ?_, fun next others hnext => ?_, rfl⟩
    · rw [hempty]; rfl
    · rw [hnext, ← SteerOrder.bytes_eq]
      obtain ⟨hrdy, hdat, hcount⟩ := SteerQueue.present_again next others
        { s.steer with admission := admissionAfterStrobe head s.steer.admission }
      exact ⟨hrdy, hcount, hdat⟩

end Sys2Proof.Machine

/-! ## The image copy's law (R175, R177) -/

namespace Sys2Proof.Machine

/-! ### The image that a successful load makes -/

theorem paramAt_paramByte (p : Config.Param) : paramAt (paramByte p) = some p := by
  cases p <;> rfl

theorem paramByte_lt (p : Config.Param) : paramByte p < Config.imageSize := by
  cases p <;> decide

/-- A parameter's range lies in one byte (R177). -/
theorem paramRange_le (p : Config.Param) : (paramRange p).1 ≤ (paramRange p).2 ∧ (paramRange p).2 ≤ 255 := by
  cases p <;> decide

theorem roundWindow_range (v : Nat) : 4 ≤ roundWindow v ∧ roundWindow v ≤ 64 := by
  unfold roundWindow
  split_ifs <;> decide

theorem clampParam_range (p : Config.Param) (v : Nat) :
    (paramRange p).1 ≤ clampParam p v ∧ clampParam p v ≤ (paramRange p).2 := by
  have hrange := paramRange_le p
  unfold clampParam
  dsimp only
  split
  · next hp => subst hp; exact roundWindow_range _
  · omega

theorem clampImage_length (buffer : List Byte) : (clampImage buffer).length = Config.imageSize := by
  simp [clampImage]

/-- A parameter byte of the image copy is clamped (R177). -/
theorem byteAt_clampImage_param {k : Nat} {p : Config.Param} (h : k < Config.imageSize) (hp : paramAt k = some p)
    (buffer : List Byte) : byteAt (clampImage buffer) k = numByte (clampParam p (byteAt buffer k).toNat) := by
  simp [byteAt, clampImage, List.getElem?_range h, hp]

/-- Every other byte of the image copy is as read (R179). -/
theorem byteAt_clampImage_other {k : Nat} (h : k < Config.imageSize) (hp : paramAt k = none) (buffer : List Byte) :
    byteAt (clampImage buffer) k = byteAt buffer k := by
  simp [byteAt, clampImage, List.getElem?_range h, hp]

/-- Every parameter of the image copy lies in its range (R177). -/
theorem clampImage_param_range (p : Config.Param) (buffer : List Byte) :
    (paramRange p).1 ≤ (byteAt (clampImage buffer) (paramByte p)).toNat
      ∧ (byteAt (clampImage buffer) (paramByte p)).toNat ≤ (paramRange p).2 := by
  obtain ⟨hlow, hhigh⟩ := clampParam_range p (byteAt buffer (paramByte p)).toNat
  have hfits := (paramRange_le p).2
  rw [byteAt_clampImage_param (paramByte_lt p) (paramAt_paramByte p), numByte, BitVec.toNat_ofNat,
    Nat.mod_eq_of_lt (by omega)]
  exact ⟨hlow, hhigh⟩

/-- The own site number is no parameter and stays as read (R178). -/
theorem clampImage_site (buffer : List Byte) : byteAt (clampImage buffer) 1 = byteAt buffer 1 :=
  byteAt_clampImage_other (by decide) rfl buffer

theorem site_of_imagePasses {image : List Byte} (h : imagePasses image = true) :
    byteAt image 1 ≠ 0 ∧ byteAt image 1 ≠ 255 := by
  simp only [imagePasses, Bool.and_eq_true, bne_iff_ne] at h
  obtain ⟨⟨⟨-, hzero⟩, hall⟩, -⟩ := h
  exact ⟨hzero, hall⟩

/-! ### What the law reads -/

theorem ImageLaw.congr {s t : State} (hreset : t.resetHeld = s.resetHeld) (hloaded : t.loaded = s.loaded)
    (himage : t.loader.image = s.loader.image) (h : ImageLaw s) : ImageLaw t where
  reset := by unfold ResetLaw; rw [hreset, hloaded]; exact h.reset
  size := by rw [hloaded, himage]; exact h.size
  site := by rw [hloaded]; unfold State.ownSite; rw [himage]; exact h.site
  ranges := by rw [hloaded, par_congr himage]; exact h.ranges

/-- Before a load has succeeded the law asks nothing. -/
theorem ImageLaw.of_unloaded {t : State} (h : t.loaded = false) : ImageLaw t where
  reset := fun _ => h
  size := fun hl => by simp [h] at hl
  site := fun hl => by simp [h] at hl
  ranges := fun hl => by simp [h] at hl

/-- The law of the copy of an image that passed the checks (R175, R177, R179). -/
theorem ImageLaw.of_passed {t : State} {image : List Byte} (hhigh : t.resetHeld = false) (hpass : imagePasses image = true)
    (hcopy : t.loader.image = clampImage image) : ImageLaw t where
  reset := fun hl => by simp [hhigh] at hl
  size := fun _ => by rw [hcopy]; exact clampImage_length image
  site := fun _ => by
    unfold State.ownSite
    rw [hcopy, clampImage_site]
    exact site_of_imagePasses hpass
  ranges := fun _ p => by
    unfold State.par
    rw [hcopy]
    exact clampImage_param_range p image

/-- Orders are made with one to eight repeats (R137, R177). -/
theorem ImageLaw.steerRepeats {s : State} (h : ImageLaw s) (hloaded : s.loaded = true) :
    1 ≤ s.par .steerRepeats ∧ s.par .steerRepeats ≤ 8 :=
  h.ranges hloaded .steerRepeats

end Sys2Proof.Machine

/-! ## The law of the steer queue under the changes of one radio (R137, R143) -/

namespace Sys2Proof.Machine

/-! ### What the orders rest on -/

/-- The radio's entry is LEAVING. -/
def State.IsLeaving (s : State) (r : Radio) : Prop :=
  ∃ (i : Fin 64) (e : RosterEntry), s.roster.entries[i] = some e ∧ e.radio = r ∧ e.state = .leaving

/-- The radio has an entry, in any state. -/
def State.HasEntry (s : State) (r : Radio) : Prop :=
  ∃ (i : Fin 64) (e : RosterEntry), s.roster.entries[i] = some e ∧ e.radio = r

/-- From `s` to `t` the orders of the radios that `p` names keep what they rest on: a LEAVING entry stays LEAVING, and no
entry joins. -/
structure OrdersStand (s t : State) (p : Radio → Prop) : Prop where
  leaving : ∀ r, p r → s.IsLeaving r → t.IsLeaving r
  entry : ∀ r, p r → t.HasEntry r → s.HasEntry r

/-- Entries changed in place, radio and state staying. -/
theorem OrdersStand.kept {s t : State} (g : Fin 64 → RosterEntry → RosterEntry)
    (hg : ∀ (i : Fin 64) e, s.roster.entries[i] = some e → EntryKept e (g i e))
    (ht : ∀ i : Fin 64, t.roster.entries[i] = s.roster.entries[i].map (g i)) : OrdersStand s t fun _ => True where
  leaving := fun r _ ⟨i, e, he, her, hes⟩ =>
    ⟨i, g i e, by rw [ht, he]; rfl, (hg i e he).radio.trans her, (hg i e he).state.trans hes⟩
  entry := fun r _ ⟨i, x, hx, hxr⟩ => by
    rw [ht] at hx
    obtain ⟨e, he, rfl⟩ := Option.map_eq_some_iff.mp hx
    exact ⟨i, e, he, (hg i e he).radio.symm.trans hxr⟩

/-- The roster changes at one index, where the radio `r` or no radio stands before and after. -/
theorem OrdersStand.elsewhere {s t : State} {i : Fin 64} {r : Radio}
    (ho : ∀ j : Fin 64, j ≠ i → t.roster.entries[j] = s.roster.entries[j])
    (hs : ∀ e, s.roster.entries[i] = some e → e.radio = r) (ht : ∀ e, t.roster.entries[i] = some e → e.radio = r) :
    OrdersStand s t fun x => x ≠ r where
  leaving := fun x hx ⟨j, e, he, her, hes⟩ => by
    have hj : j ≠ i := fun hj => by subst hj; exact hx (her.symm.trans (hs e he))
    exact ⟨j, e, by rw [ho j hj]; exact he, her, hes⟩
  entry := fun x hx ⟨j, e, he, her⟩ => by
    have hj : j ≠ i := fun hj => by subst hj; exact hx (her.symm.trans (ht e he))
    exact ⟨j, e, by rw [← ho j hj]; exact he, her⟩

/-! ### Orders that stay and orders that go -/

/-- Orders that stay in their places, on what they rest on, stay lawful. -/
theorem SteerLaw.stands {s t : State} {p : Radio → Prop} (h : SteerLaw s) (hstand : OrdersStand s t p)
    (hsub : t.steer.orders.Sublist s.steer.orders) (hp : ∀ o ∈ t.steer.orders, p o.radio)
    (hadmitted : t.steer.admission.Perm (t.steer.orders.map SteerOrder.radio)) : SteerLaw t where
  size := hsub.length_le.trans h.size
  onePerRadio := h.onePerRadio.sublist (hsub.map _)
  moves := fun o ho hk => hstand.leaving _ (hp o ho) (h.moves o (hsub.subset ho) hk)
  refuses := fun o ho hk i e he her => by
    obtain ⟨j, x, hx, hxr⟩ := hstand.entry _ (hp o ho) ⟨i, e, he, her⟩
    exact h.refuses o (hsub.subset ho) hk j x hx hxr
  repeats := fun o ho => h.repeats o (hsub.subset ho)
  admitted := hadmitted

theorem SteerLaw.same {s t : State} (h : SteerLaw s) (hstand : OrdersStand s t fun _ => True)
    (ht : t.steer = s.steer) : SteerLaw t :=
  h.stands hstand (by rw [ht]) (fun _ _ => trivial) (by rw [ht]; exact h.admitted)

/-- The admissions of the other radios are those of the other orders. -/
theorem SteerLaw.admitted_without {s : State} (h : SteerLaw s) (r : Radio) :
    (s.steer.admission.filter fun x => x != r).Perm
      ((s.steer.orders.filter fun o => o.radio != r).map SteerOrder.radio) := by
  have hperm := h.admitted.filter fun x => x != r
  rwa [List.filter_map] at hperm

theorem SteerLaw.remove_admission {s : State} (h : SteerLaw s) (r : Radio) :
    (s.steer.remove r).admission = s.steer.admission.filter fun x => x != r := by
  cases hr : s.steer.holds r with
  | true => exact (OrderRemoved.remove hr).admission
  | false =>
    rw [SteerQueue.remove_of_not_held hr]
    rw [SteerQueue.holds_eq_false_iff] at hr
    refine (List.filter_eq_self.mpr fun x hx => ?_).symm
    obtain ⟨o, ho, rfl⟩ := List.mem_map.mp (h.admitted.mem_iff.mp hx)
    simpa using hr o ho

/-- The order of a radio removed, the orders of the others stay lawful (R142, R143). -/
theorem SteerLaw.without {s t : State} {r : Radio} (h : SteerLaw s) (hstand : OrdersStand s t fun x => x ≠ r)
    (ho : t.steer.orders = s.steer.orders.filter fun o => o.radio != r)
    (ha : t.steer.admission = s.steer.admission.filter fun x => x != r) : SteerLaw t :=
  h.stands hstand (by rw [ho]; exact List.filter_sublist)
    (fun o hmem => by rw [ho] at hmem; simpa using (List.mem_filter.mp hmem).2)
    (by rw [ho, ha]; exact h.admitted_without r)

theorem SteerLaw.removed {s t : State} {r : Radio} (h : SteerLaw s) (hstand : OrdersStand s t fun x => x ≠ r)
    (ht : t.steer = s.steer.remove r) : SteerLaw t :=
  h.without hstand (by rw [ht, SteerQueue.remove_orders]) (by rw [ht, h.remove_admission])

/-- A radio whose entry is not LEAVING has no order (R143). -/
theorem SteerLaw.not_held {s : State} (h : SteerLaw s) (hd : DepartureLaw s) {i : Fin 64} {e : RosterEntry}
    (he : s.roster.entries[i] = some e) (hs : e.state ≠ .leaving) : s.steer.holds e.radio = false := by
  rw [SteerQueue.holds_eq_false_iff]
  intro o ho her
  cases hk : o.kind with
  | move =>
    obtain ⟨j, x, hx, hxr, hxs⟩ := h.moves o ho hk
    obtain rfl := hd.roster j i x e hx he (hxr.trans her)
    obtain rfl := Option.some.inj (hx.symm.trans he)
    exact hs hxs
  | refuse => exact h.refuses o ho hk i e he her.symm

theorem SteerLaw.remove_same {s : State} (h : SteerLaw s) (hd : DepartureLaw s) {i : Fin 64} {e : RosterEntry}
    (he : s.roster.entries[i] = some e) (hs : e.state ≠ .leaving) : s.steer.remove e.radio = s.steer :=
  SteerQueue.remove_of_not_held (h.not_held hd he hs)

/-- An order of a radio without an entry is a REFUSE, so that all of its orders go with the REFUSE (R143). -/
theorem SteerLaw.removeRefuse_eq {s : State} (h : SteerLaw s) {r : Radio} (hr : s.rosterIndex r = none) :
    s.steer.removeRefuse r = s.steer.remove r := by
  unfold SteerQueue.removeRefuse
  split
  · rfl
  · next hno =>
    refine (SteerQueue.remove_of_not_held ((SteerQueue.holds_eq_false_iff ..).mpr fun o ho hor => ?_)).symm
    cases hk : o.kind with
    | move =>
      obtain ⟨j, x, hx, hxr, -⟩ := h.moves o ho hk
      exact radio_ne_of_rosterIndex_none hr hx (hxr.trans hor)
    | refuse => exact hno (List.any_eq_true.mpr ⟨o, ho, by simp [hor, hk]⟩)

/-- One radio's entry changes and the radio's order, which it has only while LEAVING, goes (R53, R143). -/
theorem SteerLaw.entryChanged {s t : State} {i : Fin 64} {e : RosterEntry} (h : SteerLaw s) (hd : DepartureLaw s)
    (he : s.roster.entries[i] = some e) (ho : ∀ j : Fin 64, j ≠ i → t.roster.entries[j] = s.roster.entries[j])
    (hi : ∀ x, t.roster.entries[i] = some x → x.radio = e.radio)
    (ht : t.steer = s.steer.remove e.radio ∨ (e.state ≠ .leaving ∧ t.steer = s.steer)) : SteerLaw t := by
  refine h.removed (.elsewhere ho (fun x hx => by rw [Option.some.inj (hx.symm.trans he)]) hi) ?_
  rcases ht with ht | ⟨hs, ht⟩
  · exact ht
  · rw [ht, h.remove_same hd he hs]

/-! ### Orders that join -/

/-- An order for a radio that holds none joins at the tail of a queue with room (R138, R139). -/
theorem SteerLaw.joined {s t : State} {o : SteerOrder} (h : SteerLaw s) (hroom : s.steer.orders.length < 8)
    (hnew : ∀ x ∈ s.steer.orders, x.radio ≠ o.radio) (hrepeats : 1 ≤ o.repeats ∧ o.repeats ≤ 8)
    (hmove : o.kind = .move → s.IsLeaving o.radio) (hrefuse : o.kind = .refuse → ¬s.HasEntry o.radio)
    (hr : t.roster.entries = s.roster.entries) (ho : t.steer.orders = s.steer.orders ++ [o])
    (ha : t.steer.admission = s.steer.admission ++ [o.radio]) : SteerLaw t := by
  have hmem : ∀ x, x ∈ t.steer.orders ↔ x ∈ s.steer.orders ∨ x = o := fun x => by simp [ho]
  refine ⟨?_, ?_, fun x hx hk => ?_, fun x hx hk i e he her => ?_, fun x hx => ?_, ?_⟩
  · rw [ho, List.length_append]; exact hroom
  · rw [ho, List.map_append, List.nodup_append]
    exact ⟨h.onePerRadio, by simp, by simpa using hnew⟩
  · rw [hr]
    rcases (hmem x).mp hx with hx | rfl
    · exact h.moves x hx hk
    · exact hmove hk
  · rw [hr] at he
    rcases (hmem x).mp hx with hx | rfl
    · exact h.refuses x hx hk i e he her
    · exact hrefuse hk ⟨i, e, he, her⟩
  · rcases (hmem x).mp hx with hx | rfl
    · exact h.repeats x hx
    · exact hrepeats
  · rw [ho, ha, List.map_append]
    exact h.admitted.append_right _

/-- MOVE orders are for LEAVING entries, each with a departure record of its own, so that at most four are held (R111,
R137). -/
theorem SteerLaw.moves_le_four {s : State} (h : SteerLaw s) (hd : DepartureLaw s) :
    (s.steer.orders.filter fun o => o.kind == .move).length ≤ 4 := by
  let radios := (s.steer.orders.filter fun o => o.kind == .move).map SteerOrder.radio
  have hnodup : radios.Nodup := h.onePerRadio.sublist (List.filter_sublist.map _)
  have hrecords : radios.toFinset ⊆
      Finset.univ.image fun p : Fin 4 => (s.nego.departures[p].map Departure.radio).getD 0 := by
    intro r hr
    obtain ⟨o, ho, rfl⟩ := List.mem_map.mp (List.mem_toFinset.mp hr)
    obtain ⟨ho, hk⟩ := List.mem_filter.mp ho
    obtain ⟨i, e, he, her, hes⟩ := h.moves o ho (by simpa using hk)
    obtain ⟨p, d, hp, rfl⟩ := hd.hasRecord i e he (.inr hes)
    obtain ⟨x, hx, hxr, -⟩ := hd.hasEntry p d hp
    obtain rfl := Option.some.inj (hx.symm.trans he)
    exact Finset.mem_image.mpr ⟨p, Finset.mem_univ p, by rw [hp]; exact hxr.symm.trans her⟩
  calc (s.steer.orders.filter fun o => o.kind == .move).length
      = radios.toFinset.card := by rw [List.toFinset_card_of_nodup hnodup, List.length_map]
    _ ≤ (Finset.univ : Finset (Fin 4)).card := (Finset.card_le_card hrecords).trans Finset.card_image_le
    _ = 4 := Finset.card_fin 4

/-- A full queue holds a REFUSE, and so one that is the newest by admission (R138). -/
theorem SteerLaw.newestRefuse_of_full {s : State} (h : SteerLaw s) (hd : DepartureLaw s) (hfull : s.steer.isFull = true) :
    ∃ r, s.steer.newestRefuse = some r := by
  by_contra hnone
  have hmissing : s.steer.newestRefuse = none := Option.eq_none_iff_forall_ne_some.mpr fun r hr => hnone ⟨r, hr⟩
  have hmoves : ∀ o ∈ s.steer.orders, (o.kind == .move) = true := fun o ho => by
    have hadmitted : o.radio ∈ s.steer.admission.reverse :=
      List.mem_reverse.mpr (h.admitted.mem_iff.mpr (List.mem_map_of_mem ho))
    have hnot := List.find?_eq_none.mp hmissing _ hadmitted
    cases hk : o.kind with
    | move => rfl
    | refuse => exact absurd (List.any_eq_true.mpr ⟨o, ho, by simp [hk]⟩) hnot
  have hfour := h.moves_le_four hd
  rw [List.filter_eq_self.mpr hmoves] at hfour
  have := s.steer.isFull_iff.mp hfull
  omega

/-- The newest REFUSE is held. -/
theorem SteerQueue.holds_of_newestRefuse {q : SteerQueue} {r : Radio} (h : q.newestRefuse = some r) :
    ∃ o ∈ q.orders, o.radio = r := by
  have hfound := List.find?_some h
  obtain ⟨o, ho, hor⟩ := List.any_eq_true.mp hfound
  exact ⟨o, ho, by simp_all⟩

/-- A MOVE for a LEAVING radio that holds no order is offered: there is room, or a REFUSE makes some (R138, R143). -/
theorem SteerLaw.offerMove {s : State} (h : SteerLaw s) (hi : ImageLaw s) (hd : DepartureLaw s) (hloaded : s.loaded = true)
    {r : Radio} (hleaving : s.IsLeaving r) (hnew : s.steer.holds r = false) (n : Fin 8) : SteerLaw (s.offerMove r n) := by
  have hrepeats := hi.steerRepeats hloaded
  rw [SteerQueue.holds_eq_false_iff] at hnew
  have hsteer := s.offerMove_steer r n
  cases hfull : s.steer.isFull with
  | false =>
    have hroom : s.steer.orders.length < 8 := Nat.lt_of_not_le (mt s.steer.isFull_iff.mpr (by simp [hfull]))
    rw [SteerQueue.offerMove_of_room hfull] at hsteer
    exact h.joined (o := s.moveOrder r n) hroom hnew hrepeats (fun _ => hleaving) (nofun) (by simp)
      (by rw [hsteer, SteerQueue.admitOrder_orders]) (by rw [hsteer, SteerQueue.admitOrder_admission])
  | true =>
    obtain ⟨newest, hnewest⟩ := h.newestRefuse_of_full hd hfull
    obtain ⟨horders, hadmitted⟩ := SteerQueue.offerMove_displacing hfull hnewest (s.moveOrder r n)
    have hdisplaced : SteerLaw (s.removeOrder newest) :=
      h.removed ⟨fun _ _ => id, fun _ _ => id⟩ rfl
    have hfewer : (s.removeOrder newest).steer.orders.length < 8 := by
      obtain ⟨o, ho, hor⟩ := SteerQueue.holds_of_newestRefuse hnewest
      have hlt : (s.steer.orders.filter fun x => x.radio != newest).length < s.steer.orders.length :=
        List.length_filter_lt_length_iff_exists.mpr ⟨o, ho, by simp [hor]⟩
      rw [State.removeOrder, State.withSteer_steer, SteerQueue.remove_orders]
      exact lt_of_lt_of_le hlt h.size
    refine hdisplaced.joined (o := s.moveOrder r n) hfewer (fun x hx => ?_) hrepeats (fun _ => hleaving) (nofun)
      (by simp) ?_ ?_
    · rw [State.removeOrder, State.withSteer_steer, SteerQueue.remove_orders] at hx
      exact hnew x (List.mem_of_mem_filter hx)
    · rw [hsteer, horders, State.removeOrder, State.withSteer_steer, SteerQueue.remove_orders]
    · rw [hsteer, hadmitted, State.removeOrder, State.withSteer_steer, h.remove_admission]

/-- A REFUSE for a radio without an entry is offered (R139, R143). -/
theorem SteerLaw.offerRefuse {s t : State} (h : SteerLaw s) (hi : ImageLaw s) (hloaded : s.loaded = true) {r : Radio}
    (hr : s.rosterIndex r = none) (hroster : t.roster = s.roster)
    (hsteer : t.steer = s.steer.offerRefuse (s.refuseOrder r)) : SteerLaw t := by
  by_cases hkeep : (s.steer.holds (s.refuseOrder r).radio || s.steer.isFull) = true
  · rw [SteerQueue.offerRefuse, if_pos hkeep] at hsteer
    exact h.same (.kept (fun _ => id) (fun _ e _ => .refl e) fun i => by rw [hroster, Option.map_id_fun, id_eq]) hsteer
  · rw [SteerQueue.offerRefuse, if_neg hkeep] at hsteer
    simp only [Bool.or_eq_true, not_or, Bool.not_eq_true] at hkeep
    obtain ⟨hnew, hroom⟩ := hkeep
    refine h.joined (o := s.refuseOrder r) (Nat.lt_of_not_le (mt s.steer.isFull_iff.mpr (by simp [hroom])))
      ((SteerQueue.holds_eq_false_iff ..).mp hnew) (hi.steerRepeats hloaded) (nofun) (fun _ ⟨i, e, he, her⟩ => ?_)
      (by rw [hroster]) (by rw [hsteer, SteerQueue.admitOrder_orders]) (by rw [hsteer, SteerQueue.admitOrder_admission])
    exact radio_ne_of_rosterIndex_none hr he her

/-! ### Strobes and emptied queues -/

/-- The head leaves with its admission, at its last repeat (R141). -/
theorem SteerLaw.headLeaves {s : State} {head : SteerOrder} {rest : List SteerOrder} {q : SteerQueue} (h : SteerLaw s)
    (ho : s.steer.orders = head :: rest) (hq : q.orders = rest)
    (ha : q.admission = s.steer.admission.filter fun x => x != head.radio) : SteerLaw (s.withSteer q) := by
  refine h.without (r := head.radio) ⟨fun _ _ => id, fun _ _ => id⟩ ?_ ha
  have hradios := h.onePerRadio
  rw [ho, List.map_cons, List.nodup_cons] at hradios
  rw [State.withSteer_steer, hq, ho, List.filter_cons_of_neg (by simp)]
  exact (List.filter_eq_self.mpr fun o hmem => by
    simpa using fun heq : o.radio = head.radio => hradios.1 (heq ▸ List.mem_map_of_mem hmem)).symm

/-- The head goes to the tail with one repeat less of two or more, and every radio keeps its order (R141). -/
theorem SteerLaw.headToTail {s : State} {head : SteerOrder} {rest : List SteerOrder} {q : SteerQueue} (h : SteerLaw s)
    (ho : s.steer.orders = head :: rest) (hmore : 1 < head.repeats)
    (hq : q.orders = rest ++ [{ head with repeats := head.repeats - 1 }]) (ha : q.admission = s.steer.admission) :
    SteerLaw (s.withSteer q) := by
  have hperm : (q.orders.map SteerOrder.radio).Perm (s.steer.orders.map SteerOrder.radio) := by
    rw [hq, ho, List.map_append, List.map_cons]
    exact List.perm_append_comm
  have hsource : ∀ o ∈ q.orders, ∃ x ∈ s.steer.orders,
      x.radio = o.radio ∧ x.kind = o.kind ∧ (1 ≤ o.repeats ∧ o.repeats ≤ 8) := fun o hmem => by
    have hhead := h.repeats head (by simp [ho])
    rw [hq, List.mem_append, List.mem_singleton] at hmem
    rcases hmem with hmem | rfl
    · have hold : o ∈ s.steer.orders := by rw [ho]; exact List.mem_cons_of_mem _ hmem
      exact ⟨o, hold, rfl, rfl, h.repeats o hold⟩
    · exact ⟨head, by simp [ho], rfl, rfl, by dsimp only; omega⟩
  refine ⟨?_, hperm.nodup_iff.mpr h.onePerRadio, fun o hmem hk => ?_, fun o hmem hk i e he her => ?_, fun o hmem => ?_, ?_⟩
  · simpa using hperm.length_eq.le.trans (by simpa using h.size)
  · obtain ⟨x, hx, hxr, hxk, -⟩ := hsource o hmem
    rw [← hxr]
    exact h.moves x hx (hxk.trans hk)
  · obtain ⟨x, hx, hxr, hxk, -⟩ := hsource o hmem
    exact h.refuses x hx (hxk.trans hk) i e he (her.trans hxr.symm)
  · obtain ⟨-, -, -, -, hrepeats⟩ := hsource o hmem
    exact hrepeats
  · rw [State.withSteer_steer, ha]
    exact h.admitted.trans hperm.symm

theorem SteerLaw.strobe {s : State} (h : SteerLaw s) : SteerLaw (s.withSteer s.steer.strobe) := by
  cases hready : s.steer.strRdy with
  | false => rw [SteerQueue.strobe_of_not_ready hready]; exact h
  | true =>
    cases ho : s.steer.orders with
    | nil => rw [show s.steer.strobe = s.steer by simp [SteerQueue.strobe, ho]]; exact h
    | cons head rest =>
      have horders : s.steer.strobe.orders = afterStrobe head rest := by
        rw [SteerQueue.strobe_of_ready hready ho, SteerQueue.present_orders]
      have hadmission : s.steer.strobe.admission = admissionAfterStrobe head s.steer.admission := by
        rw [SteerQueue.strobe_of_ready hready ho, SteerQueue.present_admission]
      by_cases hlast : head.repeats ≤ 1
      · rw [afterStrobe, if_pos hlast] at horders
        rw [admissionAfterStrobe, if_pos hlast] at hadmission
        exact h.headLeaves ho horders hadmission
      · rw [afterStrobe, if_neg hlast] at horders
        rw [admissionAfterStrobe, if_neg hlast] at hadmission
        exact h.headToTail ho (Nat.lt_of_not_le hlast) horders hadmission

theorem SteerLaw.of_empty {t : State} (ho : t.steer.orders = []) (ha : t.steer.admission = []) : SteerLaw t where
  size := by rw [ho]; exact Nat.zero_le _
  onePerRadio := by rw [ho]; exact .nil
  moves := fun o h => by simp [ho] at h
  refuses := fun o h => by simp [ho] at h
  repeats := fun o h => by simp [ho] at h
  admitted := by rw [ho, ha]; exact .nil

end Sys2Proof.Machine

/-! ## The steer queue under every operation (R137, R140, R143) -/

namespace Sys2Proof.Machine

/-! ### Changes that keep the laws -/

/-- From `s` to `t` the head stays presented, and the laws of image, departures and orders are kept together. -/
structure KeepsSteered (s t : State) : Prop where
  shows : s.steer.ShowsHead → t.steer.ShowsHead
  laws : ImageLaw s ∧ DepartureLaw s ∧ SteerLaw s → ImageLaw t ∧ DepartureLaw t ∧ SteerLaw t

theorem KeepsSteered.refl (s : State) : KeepsSteered s s := ⟨id, id⟩

theorem KeepsSteered.trans {s t u : State} (h : KeepsSteered s t) (k : KeepsSteered t u) : KeepsSteered s u :=
  ⟨k.shows ∘ h.shows, k.laws ∘ h.laws⟩

/-- The law of departures being kept already, and RESET_N and loader standing, the orders alone are to be shown. -/
theorem KeepsSteered.of_fitted {s t : State} (hfit : KeepsFitted s t) (hshows : s.steer.ShowsHead → t.steer.ShowsHead)
    (hsteer : ImageLaw s → DepartureLaw s → SteerLaw s → SteerLaw t)
    (hsame : t.resetHeld = s.resetHeld ∧ t.loader = s.loader) : KeepsSteered s t where
  shows := hshows
  laws := fun ⟨hi, hd, hs⟩ =>
    ⟨hi.congr hsame.1 (by simp only [State.loaded, hsame.2]) (by rw [hsame.2]), hfit.departures hd, hsteer hi hd hs⟩

/-- Entries changed in place, radio and state staying, and neither departures nor orders. -/
theorem KeepsSteered.kept {s t : State} (g : Fin 64 → RosterEntry → RosterEntry)
    (hg : ∀ (i : Fin 64) e, s.roster.entries[i] = some e → EntryKept e (g i e))
    (ht : ∀ i : Fin 64, t.roster.entries[i] = s.roster.entries[i].map (g i)) (hi : ImageLaw s → ImageLaw t)
    (hsame : t.nego.departures = s.nego.departures ∧ t.steer = s.steer) : KeepsSteered s t where
  shows := fun h => by rw [hsame.2]; exact h
  laws := fun ⟨himage, hdepartures, hsteer⟩ =>
    ⟨hi himage, hdepartures.kept g hg ht hsame.1, hsteer.same (.kept g hg ht) hsame.2⟩

/-- Roster, departure list and steer queue stay; the image may change as its law allows. -/
theorem KeepsSteered.of_image {s t : State} (hi : ImageLaw s → ImageLaw t)
    (hsame : t.roster.entries = s.roster.entries ∧ t.nego.departures = s.nego.departures ∧ t.steer = s.steer) :
    KeepsSteered s t :=
  .kept (fun _ => id) (fun _ e _ => .refl e) (fun i => by rw [hsame.1, Option.map_id_fun, id_eq]) hi hsame.2

/-- What the laws of this section read stays. -/
theorem KeepsSteered.of_blocks {s t : State}
    (hsame : t.roster.entries = s.roster.entries ∧ t.nego.departures = s.nego.departures ∧ t.steer = s.steer
      ∧ t.resetHeld = s.resetHeld ∧ t.loader = s.loader) : KeepsSteered s t := by
  obtain ⟨hroster, hdepartures, hsteer, hreset, hloader⟩ := hsame
  exact .of_image (.congr hreset (by simp only [State.loaded, hloader]) (by rw [hloader]))
    ⟨hroster, hdepartures, hsteer⟩

theorem KeepsSteered.then {s t u : State} (h : KeepsSteered s t)
    (hsame : u.roster.entries = t.roster.entries ∧ u.nego.departures = t.nego.departures ∧ u.steer = t.steer
      ∧ u.resetHeld = t.resetHeld ∧ u.loader = t.loader) : KeepsSteered s u :=
  h.trans (.of_blocks hsame)

theorem KeepsSteered.updateEntry (i : Fin 64) (f : RosterEntry → RosterEntry) (s : State)
    (hf : ∀ e, s.roster.entries[i] = some e → EntryKept e (f e)) : KeepsSteered s (s.updateEntry i f) := by
  refine .kept (fun j => if j = i then f else id) (fun j e he => ?_) (fun j => ?_) (.congr (s := s) rfl rfl rfl)
    ⟨rfl, rfl⟩
  · split
    · next hj => subst hj; exact hf e he
    · exact .refl e
  · rw [State.updateEntry_at]
    split
    · next hj => subst hj; rfl
    · rw [Option.map_id_fun, id_eq]

theorem KeepsSteered.evalAt (i : Fin 64) (s : State) : KeepsSteered s (s.evalAt i) :=
  .updateEntry i _ s fun e _ => .evaluated s e

theorem KeepsSteered.updateEntry_eval (i : Fin 64) (f : RosterEntry → RosterEntry) (s : State)
    (hf : ∀ e, s.roster.entries[i] = some e → EntryKept e (f e)) : KeepsSteered s ((s.updateEntry i f).evalAt i) :=
  (KeepsSteered.updateEntry i f s hf).trans (.evalAt i _)

theorem KeepsSteered.evalRadios (p : Radio → Bool) (s : State) : KeepsSteered s (s.evalRadios p) := by
  refine .kept (fun _ e => if p e.radio then s.evaluated e else e) (fun _ e _ => ?_) (State.evalRadios_at p s)
    (.congr (s := s) rfl rfl rfl) ⟨rfl, rfl⟩
  split
  · exact .evaluated s e
  · exact .refl e

theorem KeepsSteered.evalAll (s : State) : KeepsSteered s s.evalAll :=
  .kept (fun _ => s.evaluated) (fun _ e _ => .evaluated s e) s.evalAll_at (.congr (s := s) rfl rfl rfl) ⟨rfl, rfl⟩

/-! ### Departures -/

theorem KeepsSteered.openDeparture {s : State} {i : Fin 64} {e : RosterEntry} (n : Fin 8)
    (he : s.roster.entries[i] = some e) (hs : e.state = .homed) : KeepsSteered s (s.openDeparture i n) := by
  refine .of_fitted (.openDeparture n he hs) (fun h => by rw [State.openDeparture_steer]; exact h) (fun _ hd h => ?_)
    (by simp)
  rcases s.openDeparture_cases i n with hsame | ⟨x, p, hx, hp⟩
  · rw [hsame]; exact h
  have hentries := State.openDeparture_entries (n := n) hx hp
  refine h.entryChanged hd he (fun j hj => by rw [hentries, getElem_updateAt_ne _ _ hj]) (fun y hy => ?_)
    (.inr ⟨by simp [hs], by simp⟩)
  rw [hentries, getElem_updateAt_self, he] at hy
  obtain rfl := Option.some.inj hy
  rfl

theorem KeepsSteered.arbiter (s : State) : KeepsSteered s s.arbiter := by
  rcases s.arbiter_cases with hsame | ⟨i, n, e, hopen, he, hhomed⟩
  · rw [hsame]; exact .refl s
  · rw [hopen]; exact .openDeparture n he hhomed

theorem State.revert_steer (d : Departure) (s : State) :
    (s.revert d).steer = if d.phase = .leaving then s.steer.remove d.radio else s.steer := by
  unfold State.revert
  dsimp only
  rw [State.evalAt_steer, State.updateEntry_steer]
  split <;> rfl

/-- A return to HOMED takes the order of a LEAVING radio with it; an ASKING one has none (R53). -/
theorem KeepsSteered.revert {s : State} {p : Fin 4} {d : Departure} (hd : s.nego.departures[p] = some d) :
    KeepsSteered s (s.revert d) := by
  refine .of_fitted (.revert hd) (fun h => ?_) (fun _ hfit h => ?_) (by simp)
  · rw [State.revert_steer]
    split
    · exact h.remove _
    · exact h
  · obtain ⟨e, he, her, hes, -⟩ := hfit.entry_of_record hd
    obtain ⟨hentry, -⟩ := State.revert_spec he
    refine h.entryChanged hfit he hentry.others (fun x hx => ?_) ?_
    · rw [hentry.entry_eq] at hx
      obtain rfl := Option.some.inj hx
      exact State.evaluated_radio ..
    · rw [State.revert_steer, her, hes]
      cases d.phase with
      | asking => exact .inr ⟨nofun, rfl⟩
      | leaving => exact .inl rfl

theorem KeepsSteered.revert_arbiter {s : State} {p : Fin 4} {d : Departure} (b : Bool) (c : Counter)
    (hd : s.nego.departures[p] = some d) : KeepsSteered s ((s.revert d).bumpIf b c).arbiter :=
  ((KeepsSteered.revert hd).then (by simp)).trans (.arbiter _)

theorem KeepsFitted.gone {s : State} {i : Fin 64} {r : Radio} (site : Byte) (o : Departed)
    (hentry : DepartureLaw s → ∃ e, s.roster.entries[i] = some e ∧ e.radio = r) : KeepsFitted s (s.gone i r site o) := by
  refine (HearingsStand.gone i r site o s).keeps fun h => ?_
  obtain ⟨e, he, rfl⟩ := hentry h
  obtain ⟨hremoved, hrecord, -⟩ := State.gone_spec he site o
  exact h.removed he hremoved hrecord

theorem SteerQueue.ShowsHead.removeEntry {s : State} (h : s.steer.ShowsHead) (i : Fin 64) :
    (s.removeEntry i).steer.ShowsHead := by
  cases he : s.roster.entries[i] with
  | none => unfold State.removeEntry; rw [he]; exact h
  | some e =>
    unfold State.removeEntry
    rw [he]
    dsimp only
    cases e.state with
    | homed => exact h
    | expected => exact h
    | asking => exact h
    | leaving => exact h.remove e.radio

/-- A handset that is gone takes its order with it (R48, R122, R124, R132). -/
theorem KeepsSteered.depart {s : State} {i : Fin 64} {r : Radio} (site : Byte) (o : Departed)
    (hentry : DepartureLaw s → ∃ e, s.roster.entries[i] = some e ∧ e.radio = r) : KeepsSteered s (s.depart i r site o) := by
  have hgone : KeepsSteered s (s.gone i r site o) := by
    refine .of_fitted (.gone site o hentry) (fun h => ?_) (fun _ hd h => ?_) (by simp [State.gone])
    · rw [State.gone, State.record_steer]
      exact (h.removeEntry i).remove r
    · obtain ⟨e, he, rfl⟩ := hentry hd
      obtain ⟨hremoved, -, hsteer, -⟩ := State.gone_spec he site o
      exact h.entryChanged hd he hremoved.others (fun x hx => by simp [hremoved.position] at hx) (.inl hsteer)
  rw [State.depart_eq]
  split
  · exact hgone.trans (.arbiter _)
  · exact hgone

theorem KeepsSteered.leaveEnds {s : State} {p : Fin 4} {d : Departure} (hd : s.nego.departures[p] = some d) :
    KeepsSteered s (s.leaveEnds d) := by
  unfold State.leaveEnds
  split
  · exact .revert_arbiter true .steerFailed hd
  · refine .depart _ _ fun h => ?_
    obtain ⟨e, he, her, -⟩ := h.entry_of_record hd
    exact ⟨e, he, her⟩

theorem KeepsSteered.resendAsk {s : State} {p : Fin 4} {d : Departure} (hd : s.nego.departures[p] = some d) :
    KeepsSteered s (s.resendAsk p d) :=
  .of_fitted (.resendAsk hd) (fun h => by rw [State.resendAsk_steer]; exact h)
    (fun _ _ h => h.same (.kept (fun _ => id) (fun _ e _ => .refl e) fun i => by
      rw [State.resendAsk_roster, Option.map_id_fun, id_eq]) (State.resendAsk_steer ..)) (by simp)

/-- A matching TAKE makes the entry LEAVING, and the MOVE that it orders is for a radio without an order (R117, R138). -/
theorem KeepsSteered.takeAccepted {s : State} (hloaded : s.loaded = true) {p : Fin 4} {d : Departure} (ticks : Nat)
    (hd : s.nego.departures[p] = some d) (hphase : d.phase = .asking) : KeepsSteered s (s.takeAccepted p d ticks) := by
  have hfitted := KeepsFitted.takeAccepted ticks hd hphase
  let u := (s.withNego
      { s.nego with departures := s.nego.departures.set p (some (d.leavingAt (s.due ticks))) }).updateEntry d.rosterIndex
    RosterEntry.toLeaving
  have hoffered : s.takeAccepted p d ticks = u.offerMove d.radio d.target := rfl
  have hentries : u.roster.entries = updateAt s.roster.entries d.rosterIndex RosterEntry.toLeaving := rfl
  refine .of_fitted hfitted (fun h => ?_) (fun hi hfit h => ?_) (by simp [State.takeAccepted])
  · rw [hoffered, State.offerMove_steer]
    exact .offerMove ..
  · obtain ⟨e, he, her, hes, -⟩ := hfit.entry_of_record hd
    have hnot : e.state ≠ .leaving := by rw [hes, hphase]; nofun
    have hentry : u.roster.entries[d.rosterIndex] = some e.toLeaving := by
      rw [hentries, getElem_updateAt_self, he]; rfl
    have hleft : SteerLaw u := by
      refine h.entryChanged hfit he (fun j hj => by rw [hentries, getElem_updateAt_ne _ _ hj]) (fun x hx => ?_)
        (.inr ⟨hnot, rfl⟩)
      rw [← Option.some.inj (hentry.symm.trans hx)]; rfl
    have hdepartures : DepartureLaw u :=
      (hfitted.departures hfit).kept (fun _ => id) (fun _ e _ => .refl e)
        (fun i => by rw [hoffered, State.offerMove_roster, Option.map_id_fun, id_eq])
        (by rw [hoffered, State.offerMove_nego])
    rw [hoffered]
    exact hleft.offerMove (hi.congr (s := s) rfl rfl rfl) hdepartures hloaded ⟨_, _, hentry, her, rfl⟩
      (her ▸ h.not_held hfit he hnot) d.target

theorem KeepsSteered.acceptTake {s : State} (hloaded : s.loaded = true) {p : Fin 4} {d : Departure} (h : Nat)
    (hd : s.nego.departures[p] = some d) (hphase : d.phase = .asking) : KeepsSteered s (s.acceptTake p d h) := by
  have htaken := KeepsSteered.takeAccepted hloaded ((h + s.par .leaveMargin) * 10) hd hphase
  rw [State.acceptTake_eq]
  split
  · exact htaken.trans (.leaveEnds (p := p) (by rw [State.takeAccepted_nego]; exact getElem_setSlot_self _ _ _))
  · exact htaken

theorem EntryKept.undwelt (e : RosterEntry) : EntryKept e { e with dwell := none } :=
  ⟨rfl, rfl, fun h =>
    ⟨h.lost, h.reservation, h.arrival, h.away, h.exclusion, nofun, fun hr => ⟨(h.askReady hr).1, rfl⟩, h.heard⟩⟩

/-- Only a HOMED entry without a dwell deadline may be ask-ready (R32, R103). -/
theorem EntryKept.askReady {e : RosterEntry} (hs : e.state = .homed) (hd : e.dwell = none) :
    EntryKept e { e with askReady := true } :=
  ⟨rfl, rfl, fun h =>
    ⟨h.lost, h.reservation, h.arrival, h.away, h.exclusion, h.dwell, fun _ => ⟨hs, hd⟩, h.heard⟩⟩

theorem KeepsSteered.dwellExpires {s : State} {i : Fin 64} {e : RosterEntry} (he : s.roster.entries[i] = some e)
    (hhomed : e.state = .homed) : KeepsSteered s (s.dwellExpires i e) := by
  have hundwelt : KeepsSteered s (s.updateEntry i fun e => { e with dwell := none }) :=
    .updateEntry i _ s fun x _ => .undwelt x
  have hentry : (s.updateEntry i fun e => { e with dwell := none }).roster.entries[i] = some { e with dwell := none } := by
    rw [State.updateEntry_at, if_pos rfl, he]; rfl
  unfold State.dwellExpires
  dsimp only
  split
  · split
    · split
      · exact hundwelt.trans (.openDeparture _ hentry hhomed)
      · exact hundwelt
    · refine hundwelt.trans (.updateEntry i _ _ fun x hx => ?_)
      obtain rfl := Option.some.inj (hx.symm.trans hentry)
      exact .askReady hhomed rfl
  · exact hundwelt

/-! ### Entries removed and created -/

/-- A HOMED or EXPECTED entry removed: it had no order (R46, R51, R57). -/
theorem KeepsSteered.removeEntry {s : State} {i : Fin 64} {e : RosterEntry} (he : s.roster.entries[i] = some e)
    (hs : e.state = .homed ∨ e.state = .expected) : KeepsSteered s (s.removeEntry i) := by
  refine .of_fitted (.removeEntry he hs) (fun h => h.removeEntry i) (fun _ hd h => ?_) (by simp)
  have hremoved := State.removeEntry_removed he
  exact h.entryChanged hd he hremoved.others (fun x hx => by simp [hremoved.position] at hx)
    (.inr ⟨by rcases hs with hs | hs <;> simp [hs], (State.removeEntry_simple he hs).2⟩)

/-- An entry created at a free index: the only order that its radio can hold, a REFUSE, goes (R36, R49, R143). -/
theorem KeepsSteered.createEntry {s : State} {i : Fin 64} {e : RosterEntry} (hfree : s.roster.entries[i] = none)
    (hr : s.rosterIndex e.radio = none) (hf : FieldLaw e) (hs : e.state = .homed ∨ e.state = .expected) :
    KeepsSteered s (s.createEntry i e) := by
  have hentries := s.createEntry_entries i e
  refine .of_fitted (.createEntry hfree hr hf hs) (fun h => ?_) (fun _ _ h => ?_) (by simp)
  · rw [State.createEntry_steer]
    exact h.removeRefuse _
  · refine h.removed (r := e.radio)
      (.elsewhere (i := i) (fun j hj => ?_) (fun x hx => by simp [hfree] at hx) fun x hx => ?_) ?_
    · rw [hentries, getElem_setSlot_ne _ _ hj]
    · rw [hentries, getElem_setSlot_self] at hx
      rw [Option.some.inj hx]
    · rw [State.createEntry_steer, h.removeRefuse_eq hr]

theorem KeepsSteered.home {s : State} {i : Fin 64} {o : Observation} (hfree : s.roster.entries[i] = none)
    (hr : s.rosterIndex o.radio = none) : KeepsSteered s (s.home i o) :=
  ((KeepsSteered.createEntry (e := s.newHomed o) hfree hr (.newHomed s o) (.inl rfl)).then (by simp)).trans (.evalAt _ _)

theorem KeepsSteered.refuseHoming {s : State} {o : Observation} (hloaded : s.loaded = true)
    (hr : s.rosterIndex o.radio = none) : KeepsSteered s (s.refuseHoming o) := by
  have hsteer : (s.refuseHoming o).steer = s.steer.offerRefuse (s.refuseOrder o.radio) := by
    rw [State.refuseHoming, State.raise_steer, State.bump_steer, State.offerRefuse_steer]
  have hfit : KeepsFitted s (s.refuseHoming o) := .of_blocks (by simp) (by simp) (by simp) (by simp) (by simp)
  refine .of_fitted hfit (fun h => ?_) (fun hi _ h => ?_) (by simp)
  · rw [hsteer]; exact h.offerRefuse _
  · exact h.offerRefuse hi hloaded hr (by simp) hsteer

theorem KeepsSteered.homeOrRefuse {s : State} {o : Observation} (hloaded : s.loaded = true)
    (hr : s.rosterIndex o.radio = none) : KeepsSteered s (s.homeOrRefuse o) := by
  unfold State.homeOrRefuse
  split
  · exact .refl s
  · split
    · split
      · next i hi => exact .home (lowestFree_some hi) hr
      · exact .refuseHoming hloaded hr
    · exact .refuseHoming hloaded hr

/-- The arrival of the handset of a reservation, which had no order (R43). -/
theorem KeepsSteered.arrive {s : State} {i : Fin 64} {e : RosterEntry} (he : s.roster.entries[i] = some e)
    (hs : e.state = .expected) (o : Observation) : KeepsSteered s (s.arrive i e o) := by
  refine .of_fitted (.arrive he hs o) (fun h => by rw [State.arrive_steer]; exact h) (fun _ hd h => ?_) (by simp)
  refine h.entryChanged hd he (fun j hj => ?_) (fun x hx => ?_) (.inr ⟨by simp [hs], State.arrive_steer ..⟩)
  · rw [State.arrive, State.evalAt_at, if_neg hj, State.announce_roster, State.updateEntry_at, if_neg hj]
  · rw [State.arrive, State.evalAt_at, if_pos rfl, State.announce_roster, State.updateEntry_at, if_pos rfl, he] at hx
    obtain rfl := Option.some.inj hx
    exact State.evaluated_radio ..

end Sys2Proof.Machine

/-! ## The steer queue under observations and frames (R16, R117 to R132) -/

namespace Sys2Proof.Machine

/-! ### Observations -/

theorem KeepsSteered.hearLeaving {s : State} {i : Fin 64} {e : RosterEntry} (he : s.roster.entries[i] = some e)
    (hs : e.state = .leaving) (r : Radio) (o : Observation) : KeepsSteered s (s.hearLeaving i r o) := by
  have hrefreshed : KeepsSteered s (s.updateEntry i (s.refreshed o)) := .updateEntry i _ s fun x hx => by
    rw [Option.some.inj (hx.symm.trans he)]
    exact .refreshed s o (by simp [hs])
  unfold State.hearLeaving
  dsimp only
  split
  · split
    · next d hd =>
      obtain ⟨p, -, hp⟩ := State.departure_of_index hd
      exact hrefreshed.trans (.revert_arbiter _ .steerFailed (by rw [State.updateEntry_nego]; exact hp))
    · exact hrefreshed
  · refine hrefreshed.trans (.updateEntry i _ _ fun x hx => ?_)
    rw [State.updateEntry_at, if_pos rfl, he] at hx
    obtain rfl := Option.some.inj hx
    exact .of_fields rfl rfl rfl rfl rfl .inl id rfl rfl fun _ => .inr hs

theorem KeepsSteered.hearRostered {s : State} {i : Fin 64} {e : RosterEntry} (he : s.roster.entries[i] = some e)
    (o : Observation) : KeepsSteered s (s.hearRostered i e o) := by
  have hrefreshed : e.state ≠ .expected → KeepsSteered s (s.updateEntry i (s.refreshed o)) := fun hs =>
    .updateEntry i _ s fun x hx => by
      rw [Option.some.inj (hx.symm.trans he)]
      exact .refreshed s o hs
  unfold State.hearRostered
  split
  · next hs => exact (hrefreshed (by simp [hs])).trans (.evalAt _ _)
  · next hs => exact hrefreshed (by simp [hs])
  · next hs => exact .hearLeaving he hs _ o
  · next hs => exact .arrive he hs o

theorem KeepsSteered.deliver {s : State} (hloaded : s.loaded = true) (o : Observation) : KeepsSteered s (s.deliver o) := by
  unfold State.deliver
  split
  · next hr =>
    split
    · exact .of_blocks (by simp)
    · exact .homeOrRefuse hloaded hr
  · split
    · exact .updateEntry _ _ s fun e _ => .sighted s o e
    · split
      · next he => exact .hearRostered he o
      · exact .refl s

theorem KeepsSteered.takeSlot {s : State} (hloaded : s.loaded = true) (frame : List Byte) (p : Fin 8) :
    KeepsSteered s (s.takeSlot frame p) := by
  unfold State.takeSlot State.admitThenDeliver
  dsimp only
  split
  · split
    · exact .trans (.of_blocks (by simp)) (.deliver (by simpa [State.setLock] using hloaded) _)
    · exact .of_blocks (by simp)
  · exact .of_blocks (by simp)

theorem KeepsSteered.takeFrame {s : State} (hloaded : s.loaded = true) (frame : List Byte) :
    KeepsSteered s (s.takeFrame frame) := by
  have hslots : ∀ u : State, u.loaded = true → KeepsSteered u (u.takeSlots frame) := fun u hu =>
    (State.takeSlots_induct (P := fun t => t.loaded = true ∧ KeepsSteered u t) frame
      (fun t p ⟨ht, hut⟩ => ⟨by rw [State.takeSlot_loaded]; exact ht, hut.trans (.takeSlot ht frame p)⟩) u
      ⟨hu, .refl u⟩).2
  unfold State.takeFrame
  dsimp only
  split
  · exact .trans (.of_blocks (by simp)) (hslots _ hloaded)
  · exact .trans (.of_blocks (by simp)) (hslots _ hloaded)
  · exact .refl s

/-! ### Frames from neighbours -/

theorem KeepsSteered.receiveTake {s : State} (hloaded : s.loaded = true) (f : LinkFrame) :
    KeepsSteered s (s.receiveTake f) := by
  unfold State.receiveTake
  split
  · next hp =>
    split
    · next hd => exact .acceptTake hloaded _ hd (State.matchingRecord_some hp hd).2.1
    · exact .refl s
  · exact .refl s

theorem KeepsSteered.receiveDecline (f : LinkFrame) (s : State) : KeepsSteered s (s.receiveDecline f) := by
  unfold State.receiveDecline
  split
  · split
    · next hd => exact .revert_arbiter true .asksDeclined hd
    · exact .refl s
  · exact .refl s

theorem KeepsSteered.receiveAsk (f : LinkFrame) (s : State) : KeepsSteered s (s.receiveAsk f) := by
  unfold State.receiveAsk
  dsimp only
  split
  · exact .refl s
  · exact .of_blocks (by simp)
  · next i _ =>
    exact (KeepsSteered.updateEntry i s.renewed s fun e _ =>
      .of_fields rfl rfl rfl (by simp [State.renewed]) rfl .inl id rfl rfl .inl).then (by simp)
  · next i stray h =>
    exact (KeepsSteered.createEntry
      (e := s.newExpected (radioAt f.body 0) stray.f f.source (byteAt f.body 3)) (State.askAnswer_free h)
      (State.askAnswer_accept h).1 (.newExpected ..) (.inr rfl)).then (by simp)

theorem KeepsSteered.conflict {s : State} {i : Fin 64} {e : RosterEntry} (he : s.roster.entries[i] = some e)
    (source : Byte) (c : Option (BitVec 4)) : KeepsSteered s (s.conflict i e source c) := by
  unfold State.conflict
  split
  · exact .of_blocks (by simp)
  · exact .depart _ _ fun _ => ⟨e, he, rfl⟩

theorem KeepsSteered.receiveHomed (f : LinkFrame) (s : State) : KeepsSteered s (s.receiveHomed f) := by
  unfold State.receiveHomed
  dsimp only
  split
  · exact .refl s
  next i hi =>
  split
  · exact .refl s
  next e he =>
  split
  · next hs => exact .removeEntry he (.inr hs)
  · exact .conflict he _ _
  · exact .conflict he _ _
  · split
    · exact (KeepsSteered.of_blocks (t := s.bump .handoversConfirmed) (by simp)).trans
        (.depart _ _ fun _ => by rw [State.bump_roster]; exact State.entry_of_rosterIndex hi)
    · exact .conflict he _ _

theorem KeepsSteered.negotiate {s : State} (hloaded : s.loaded = true) (f : LinkFrame) :
    KeepsSteered s (s.negotiate f) := by
  unfold State.negotiate
  split
  · exact .refl s
  · exact .receiveAsk f s
  · exact .receiveTake hloaded f
  · exact .receiveDecline f s
  · exact .receiveHomed f s

theorem KeepsSteered.receiveHeard (n : Fin 8) (all : Bool) (body : List Byte) (s : State) :
    KeepsSteered s (s.receiveHeard n all body) := by
  unfold State.receiveHeard
  exact .trans (.of_blocks (by simp)) (.evalRadios _ _)

theorem KeepsSteered.dispatchNeighbour {s : State} (hloaded : s.loaded = true) (n : Fin 8) (f : LinkFrame) :
    KeepsSteered s (s.dispatchNeighbour n f) := by
  have hheard : KeepsSteered s (s.hearFrom n) := .of_blocks (by simp)
  have heval : ∀ b : Bool, KeepsSteered s (if b then (s.hearFrom n).evalAll else s.hearFrom n)
      ∧ (if b then (s.hearFrom n).evalAll else s.hearFrom n).loaded = true := by
    intro b
    cases b
    · exact ⟨hheard, hloaded⟩
    · exact ⟨hheard.trans (.evalAll _), hloaded⟩
  unfold State.dispatchNeighbour
  dsimp only
  split
  · exact hheard.trans (.receiveHeard _ _ _ _)
  · obtain ⟨hevaluated, hstill⟩ := heval (s.hearing.neighbours[n].state != .live)
    split
    · exact hevaluated.trans (.negotiate hstill f)
    · exact hevaluated

theorem KeepsSteered.dispatchFrame {s : State} (hloaded : s.loaded = true) (f : LinkFrame) (rest : List LinkFrame) :
    KeepsSteered s (s.dispatchFrame f rest) := by
  have htaken : KeepsSteered s (s.withLink { s.link with rx := rest }) := .of_blocks (by simp)
  have hstill : (s.withLink { s.link with rx := rest }).loaded = true := hloaded
  refine htaken.trans ?_
  unfold State.dispatchFrame
  dsimp only
  split
  · exact .dispatchNeighbour hstill _ f
  · unfold State.dispatchStranger
    split
    · exact .refl _
    · split
      · exact .of_blocks (by simp)
      · exact .negotiate hstill f

end Sys2Proof.Machine

/-! ## The steer queue under every command (R137, R140, R143) -/

namespace Sys2Proof.Machine

/-! ### Shapes of a meaning -/

theorem KeepsSteered.of_serve {f : State → State} {s t : State} (h : serve f s = .next t)
    (hf : s.resetHeld = false → KeepsSteered s (f s)) : KeepsSteered s t := by
  rcases serve_eq_next h with ⟨-, rfl⟩ | ⟨hhigh, rfl⟩
  · exact .refl _
  · exact hf hhigh

theorem KeepsSteered.of_serveIf {b : Bool} {f : State → State} {s t : State} (h : serveIf b f s = .next t)
    (hf : s.resetHeld = false → KeepsSteered s (f s)) : KeepsSteered s t := by
  obtain ⟨rfl, -⟩ := serveIf_eq_next h
  exact .of_serve h hf

theorem KeepsSteered.onlyIf {p : Prop} [Decidable p] {s t : State} (h : p → KeepsSteered s t) :
    KeepsSteered s (if p then t else s) := by
  split
  · next hp => exact h hp
  · exact .refl s

theorem KeepsSteered.whenDue {i : Fin 64} {due : RosterEntry → Bool} {f : RosterEntry → State → State} {s : State}
    (hf : ∀ e, s.roster.entries[i] = some e → due e = true → KeepsSteered s (f e s)) :
    KeepsSteered s (s.whenDue i due f) := by
  unfold State.whenDue
  split
  · next e he => exact .onlyIf fun hdue => hf e he hdue
  · exact .refl s

/-- A deadline of a field that no state binds: the field is cleared and the entry evaluated. -/
theorem KeepsSteered.fieldDeadline {i : Fin 64} {due : RosterEntry → Bool} {g : RosterEntry → RosterEntry} {s t : State}
    (h : serve (fun s => s.whenDue i due fun _ s => (s.updateEntry i g).evalAt i) s = .next t)
    (hg : ∀ e, EntryKept e (g e)) : KeepsSteered s t :=
  .of_serve h fun _ => .whenDue fun _ _ _ => .updateEntry_eval i g s fun e _ => hg e

theorem KeepsSteered.portCommand (c : PortCommand) (part : FramePart) (s : State)
    (heff : ∀ (shown : List Byte) (s : State), KeepsSteered s (c.effect shown s)) :
    KeepsSteered s (s.portCommand c part) := by
  refine State.portCommand_induct (P := KeepsSteered s) c part ?_ ?_ ?_ ?_ s (.refl s)
  · exact fun t f h => h.then (by simp)
  · exact fun t m h => h.then (by simp)
  · exact fun t h => h.then (by simp)
  · exact fun shown t h => h.trans (heff shown t)

/-- A load that begins or fails leaves nothing loaded and touches no table (R172, R174). -/
theorem KeepsSteered.unloads {s t : State} (h : t.loaded = false)
    (hsame : t.roster.entries = s.roster.entries ∧ t.nego.departures = s.nego.departures ∧ t.steer = s.steer) :
    KeepsSteered s t :=
  .of_image (fun _ => .of_unloaded h) hsame

/-- Everything that an order or a departure is about has been emptied (R171, R196). -/
theorem KeepsSteered.of_empty {s t : State} (hfit : KeepsFitted s t) (hi : ImageLaw s → ImageLaw t)
    (horders : t.steer.orders = []) (hadmission : t.steer.admission = [])
    (hshown : t.steer.strRdy = false ∧ t.steer.strDat = []) : KeepsSteered s t where
  shows := fun _ => ⟨fun _ => hshown, fun _ _ h => by simp [horders] at h⟩
  laws := fun ⟨himage, hd, _⟩ => ⟨hi himage, hfit.departures hd, .of_empty horders hadmission⟩

/-! ### Meanings that are more than one change under one condition -/

theorem KeepsSteered.readComplete {pulses : Nat} {image : List Byte} {s t : State}
    (h : execReadComplete pulses image s = .next t) : KeepsSteered s t := by
  refine .of_serveIf h fun hhigh => .onlyIf fun _ => ?_
  split
  · next hpass => exact .of_image (fun _ => .of_passed hhigh hpass rfl) ⟨rfl, rfl, rfl⟩
  · exact .unloads rfl ⟨rfl, rfl, rfl⟩

theorem KeepsSteered.tick {s t : State} (h : execTick s = .next t) : KeepsSteered s t :=
  .of_serve h fun _ => .of_blocks (by simp)

theorem KeepsSteered.reportFrameStart {s t : State} (h : execReportFrameStart s = .next t) : KeepsSteered s t :=
  .of_serve h fun _ => .of_blocks (by simp)

theorem KeepsSteered.oldMark {stamp : StampName} {s t : State} (h : execOldMark stamp s = .next t) :
    KeepsSteered s t := by
  refine .of_serve h fun _ => ?_
  cases stamp <;> exact .of_blocks (by simp)

theorem KeepsSteered.reportFrame {frame : List Byte} {s t : State} (h : execReportFrame frame s = .next t) :
    KeepsSteered s t := by
  have hended : KeepsSteered s (s.withIntake { s.intake with collecting := false }) := .of_blocks (by simp)
  refine .of_serveIf h fun _ => .onlyIf fun _ => ?_
  split
  · next hrunning => exact hended.trans (.takeFrame (by simp_all [State.running, State.loaded]) frame)
  · exact hended

theorem KeepsSteered.lostDeadline {i : Fin 64} {s t : State} (h : execLostDeadline i s = .next t) : KeepsSteered s t := by
  refine .of_serve h fun _ => .whenDue fun e he hdue => ?_
  have hhomed : e.state = .homed := by simp_all
  exact (KeepsSteered.removeEntry he (.inl hhomed)).then ⟨by simp, rfl, by simp, by simp, by simp⟩

theorem KeepsSteered.reservationDeadline {i : Fin 64} {s t : State} (h : execReservationDeadline i s = .next t) :
    KeepsSteered s t := by
  refine .of_serve h fun _ => .whenDue fun e he hdue => ?_
  have hexpected : e.state = .expected := by simp_all
  exact (KeepsSteered.removeEntry he (.inr hexpected)).then (by simp)

theorem KeepsSteered.dwellExpiry {i : Fin 64} {s t : State} (h : execDwellExpiry i s = .next t) : KeepsSteered s t := by
  refine .of_serve h fun _ => .whenDue fun e he hdue => ?_
  have hhomed : e.state = .homed := by simp_all
  exact .dwellExpires he hhomed

theorem KeepsSteered.answerDeadline {p : Fin 4} {s t : State} (h : execAnswerDeadline p s = .next t) :
    KeepsSteered s t := by
  refine .of_serve h fun _ => ?_
  split
  · next hd =>
    refine .onlyIf fun _ => ?_
    split
    · exact .resendAsk hd
    · exact .revert_arbiter true .asksTimedOut hd
  · exact .refl s

theorem KeepsSteered.leaveDeadline {p : Fin 4} {s t : State} (h : execLeaveDeadline p s = .next t) :
    KeepsSteered s t := by
  refine .of_serve h fun _ => ?_
  split
  · next hd => exact .onlyIf fun _ => .leaveEnds hd
  · exact .refl s

theorem KeepsSteered.silenceDeadline {n : Fin 8} {s t : State} (h : execSilenceDeadline n s = .next t) :
    KeepsSteered s t :=
  .of_serve h fun _ => .onlyIf fun _ => .trans (.of_blocks (by simp)) (.evalAll _)

theorem KeepsSteered.hearingExpiry {j : Fin 128} {s t : State} (h : execHearingExpiry j s = .next t) :
    KeepsSteered s t := by
  refine .of_serve h fun _ => ?_
  split
  · exact .onlyIf fun _ => .trans (.of_blocks (by simp)) (.evalRadios _ _)
  · exact .refl s

theorem KeepsSteered.idleGapDeadline {s t : State} (h : execIdleGapDeadline s = .next t) : KeepsSteered s t := by
  refine .of_serve h fun _ => ?_
  split
  · exact .onlyIf fun _ => .of_blocks (by simp)
  · exact .refl s

theorem KeepsSteered.spacingEnd {s t : State} (h : execSpacingEnd s = .next t) : KeepsSteered s t := by
  refine .of_serve h fun _ => ?_
  split
  · exact .onlyIf fun _ => .of_blocks (by simp)
  · exact .refl s

theorem KeepsSteered.carrierOnset {s t : State} (h : execCarrierOnset s = .next t) : KeepsSteered s t := by
  cases h
  split
  · exact .refl s
  split <;> exact .of_blocks (by simp)

theorem KeepsSteered.carrierFall {bytes : List Byte} {s t : State} (h : execCarrierFall bytes s = .next t) :
    KeepsSteered s t := by
  cases h
  split
  · exact .refl s
  split
  · exact .of_blocks (by simp)
  dsimp only
  split <;> exact .of_blocks (by simp)

theorem KeepsSteered.dispatch {s t : State} (h : execDispatch s = .next t) : KeepsSteered s t := by
  refine .of_serve h fun _ => ?_
  split
  · exact .onlyIf fun hrunning => .dispatchFrame (by simp_all [State.running, State.loaded]) _ _
  · exact .refl s

theorem KeepsSteered.takenStrobe {s t : State} (h : execTakenStrobe s = .next t) : KeepsSteered s t :=
  .of_serve h fun _ => .of_fitted (.of_blocks rfl rfl rfl rfl rfl) (fun hq => hq.strobe) (fun _ _ hs => hs.strobe) (by simp)

theorem KeepsSteered.fetchComplete {s t : State} (h : execFetchComplete s = .next t) : KeepsSteered s t := by
  refine .of_serve h fun _ => ?_
  split
  · exact .of_blocks (by simp)
  · exact .refl s

/-- Between RUNNING and FLUSHING a part stays loaded (R171, R197). -/
theorem KeepsSteered.flushComplete {s t : State} (h : execFlushComplete s = .next t) : KeepsSteered s t := by
  refine .of_serve h fun _ => .onlyIf fun hflushing => .of_image (.congr rfl ?_ rfl) ⟨rfl, rfl, rfl⟩
  simp_all [State.loaded]

/-! ### The effects of the maintenance commands -/

theorem KeepsSteered.dropCommand (s : State) : KeepsSteered s s.dropCommand := .of_blocks (by simp)

theorem KeepsSteered.selectEffect (table index : Byte) (shown : List Byte) (s : State) :
    KeepsSteered s ((selectCommand table index).effect shown s) := by
  simp only [selectCommand]
  split
  · exact .of_blocks (by simp)
  · exact .dropCommand s

theorem KeepsSteered.countersEffect (clear : Byte) (shown : List Byte) (s : State) :
    KeepsSteered s ((countersCommand clear).effect shown s) := by
  simp only [countersCommand]
  split
  · exact .refl s
  · exact .of_blocks (by simp)

theorem KeepsSteered.holdEffect (mode : Byte) (shown : List Byte) (s : State) :
    KeepsSteered s ((holdCommand mode).effect shown s) := by
  simp only [holdCommand, State.setHoldMode]
  split
  · split
    · exact .refl s
    · exact .trans (.of_blocks (by simp)) (.evalAll _)
  · exact .dropCommand s

theorem KeepsSteered.pinRadio (r : Radio) (s : State) : KeepsSteered s (s.pinRadio r) := by
  unfold State.pinRadio
  split
  · exact .refl s
  · split
    · exact .dropCommand s
    · exact .trans (.of_blocks (by simp)) (.evalRadios _ _)

theorem KeepsSteered.unpinRadio (r : Radio) (s : State) : KeepsSteered s (s.unpinRadio r) := by
  unfold State.unpinRadio
  split
  · exact .trans (.of_blocks (by simp)) (.evalRadios _ _)
  · exact .refl s

theorem KeepsSteered.setListenOnly (on : Bool) (s : State) : KeepsSteered s (s.setListenOnly on) := by
  unfold State.setListenOnly
  split
  · exact .refl s
  · exact .trans (.of_blocks (by simp)) (.evalAll _)

theorem KeepsSteered.listenEffect (setting : Byte) (shown : List Byte) (s : State) :
    KeepsSteered s ((listenCommand setting).effect shown s) := by
  simp only [listenCommand]
  split
  · split
    · exact .setListenOnly _ s
    · exact .dropCommand s
  · exact .dropCommand s

theorem KeepsSteered.flushEffect (shown : List Byte) (s : State) : KeepsSteered s (flushCommand.effect shown s) := by
  simp only [flushCommand]
  split
  · next hrunning =>
    have hloaded : s.beginFlush.loaded = s.loaded := by simp_all [State.beginFlush, State.loaded, State.running]
    exact .of_empty (.beginFlush hrunning) (.congr rfl hloaded rfl) rfl rfl ⟨rfl, rfl⟩
  · exact .dropCommand s

theorem KeepsSteered.reloadEffect (shown : List Byte) (s : State) : KeepsSteered s (reloadCommand.effect shown s) := by
  simp only [reloadCommand]
  split
  · exact .unloads rfl ⟨rfl, rfl, rfl⟩
  · exact .dropCommand s

/-! ### Every command -/

theorem exec_keepsSteered {c : Instr} {s t : State} (h : exec c s = .next t) : KeepsSteered s t := by
  cases c with
  | hardReset =>
    have hfit := exec_keepsFitted h
    cases h
    exact .of_empty hfit (fun _ => .of_unloaded rfl) rfl rfl ⟨rfl, rfl⟩
  | resetRelease => cases h; exact .onlyIf fun _ => .unloads rfl ⟨rfl, rfl, rfl⟩
  | readComplete pulses image => exact .readComplete h
  | missingAcknowledge pulses point => exact .of_serveIf h fun _ => .onlyIf fun _ => .unloads rfl ⟨rfl, rfl, rfl⟩
  | stuckDataLine => exact .of_serve h fun _ => .onlyIf fun _ => .unloads rfl ⟨rfl, rfl, rfl⟩
  | loadDeadline progress clockHeld => exact .of_serveIf h fun _ => .onlyIf fun _ => .unloads rfl ⟨rfl, rfl, rfl⟩
  | tick => exact .tick h
  | oldMark stamp => exact .oldMark h
  | reportFrameStart => exact .reportFrameStart h
  | reportFrame frame => exact .reportFrame h
  | lostDeadline i => exact .lostDeadline h
  | callActiveDeadline i => exact .fieldDeadline h fun _ => .of_fields rfl rfl rfl rfl rfl .inl id rfl rfl .inl
  | emergencyClear i => exact .fieldDeadline h fun _ => .of_fields rfl rfl rfl rfl rfl .inl id rfl rfl .inl
  | guardPeriodEnd i => exact .fieldDeadline h fun _ => .of_fields rfl rfl rfl rfl (by simp) .inl id rfl rfl .inl
  | reservationDeadline i => exact .reservationDeadline h
  | dwellExpiry i => exact .dwellExpiry h
  | exclusionDeadline i => exact .fieldDeadline h fun _ => .of_fields rfl rfl rfl rfl rfl .inl nofun rfl rfl .inl
  | answerDeadline p => exact .answerDeadline h
  | leaveDeadline p => exact .leaveDeadline h
  | strayAgeDeadline j => exact .of_serve h fun _ => .onlyIf fun _ => .of_blocks (by simp)
  | hearingPeriodExpiry => exact .of_serve h fun _ => .onlyIf fun _ => .of_blocks (by simp)
  | silenceDeadline n => exact .silenceDeadline h
  | hearingExpiry j => exact .hearingExpiry h
  | idleGapDeadline => exact .idleGapDeadline h
  | backoffEnd => exact .of_serve h fun _ => .onlyIf fun _ => .of_blocks (by simp)
  | spacingEnd => exact .spacingEnd h
  | windowEnd => exact .of_serve h fun _ => .onlyIf fun _ => .of_blocks (by simp)
  | carrierOnset => exact .carrierOnset h
  | carrierFall bytes => exact .carrierFall h
  | dispatch => exact .dispatch h
  | sentReport => exact .of_serve h fun _ => .onlyIf fun _ => .of_blocks (by simp)
  | takenStrobe => exact .takenStrobe h
  | status part => exact .of_serve h fun _ => .portCommand _ part s fun _ u => .refl u
  | peekAttention part => exact .of_serve h fun _ => .portCommand _ part s fun _ u => .refl u
  | takeAttention part => exact .of_serve h fun _ => .portCommand _ part s fun _ _ => .of_blocks ⟨rfl, rfl, rfl, rfl, rfl⟩
  | selectTable table index part => exact .of_serve h fun _ => .portCommand _ part s (.selectEffect table index)
  | readEntry part => exact .of_serve h fun _ => .portCommand _ part s fun _ _ => .of_blocks ⟨rfl, rfl, rfl, rfl, rfl⟩
  | fetchComplete => exact .fetchComplete h
  | readCounters clear part => exact .of_serve h fun _ => .portCommand _ part s (.countersEffect clear)
  | setHold mode part => exact .of_serve h fun _ => .portCommand _ part s (.holdEffect mode)
  | pin radio part => exact .of_serve h fun _ => .portCommand _ part s fun _ u => .pinRadio radio u
  | unpin radio part => exact .of_serve h fun _ => .portCommand _ part s fun _ u => .unpinRadio radio u
  | listenOnly setting part => exact .of_serve h fun _ => .portCommand _ part s (.listenEffect setting)
  | flush part => exact .of_serve h fun _ => .portCommand _ part s .flushEffect
  | flushComplete => exact .flushComplete h
  | reload part => exact .of_serve h fun _ => .portCommand _ part s .reloadEffect
  | unknownCommand code part => exact .of_serveIf h fun _ => .portCommand _ part s fun _ u => .refl u

theorem step_keepsSteered {s t : State} (h : step s = .next t) : KeepsSteered s t := by
  unfold step at h
  split at h
  · cases h; exact .refl _
  · next c rest _ =>
    have hrest : KeepsSteered s (s.withPending rest) := .of_blocks (by simp)
    exact hrest.trans (exec_keepsSteered h)

/-- Settles O57: every operation presents the head of the queue that it leaves, and keeps the law of the orders over those
of image and departures, so every step does. -/
theorem everyStepKeepsTheSteerLaw : Obligations.EveryStepKeepsTheSteerLaw := by
  intro s t h
  obtain ⟨hshows, hlaws⟩ := step_keepsSteered h
  rw [presentationLaw_iff, presentationLaw_iff]
  exact ⟨hshows, hlaws⟩

end Sys2Proof.Machine

/-! ## Link frames completed and judged (R148 to R151) -/

namespace Sys2Proof.Machine

theorem frameKindOf_code (kind : FrameKind) : frameKindOf kind.code = some kind := by
  cases kind <;> rfl

theorem code_of_frameKindOf {code : Byte} {kind : FrameKind} (h : frameKindOf code = some kind) : kind.code = code := by
  apply BitVec.eq_of_toNat_eq
  unfold frameKindOf at h
  split at h
  case h_6 => cases h
  all_goals
    next hcode =>
      rw [← Option.some.inj h, hcode]
      rfl

/-- The longest body is that of a HEARD notice of six pairs (00_scope.md, 7.2). -/
theorem bodyFits_length {kind : FrameKind} {body : List Byte} (h : bodyFits kind body = true) : body.length ≤ 25 := by
  cases kind <;> simp [bodyFits] at h <;> omega

theorem numByte_toNat {n : Nat} (h : n < 256) : (numByte n).toNat = n := by
  rw [numByte, BitVec.toNat_ofNat, Nat.mod_eq_of_lt h]

theorem framePrefix_length (dest source : Byte) (kind : FrameKind) (body : List Byte) :
    (framePrefix dest source kind body).length = 4 + body.length := by
  rw [framePrefix, List.length_cons, List.length_cons, List.length_cons, List.length_cons]; omega

/-- The two bytes after any others are read back as the word that they were made of. -/
theorem wordAt_append_wordBytes (bytes : List Byte) (w : BitVec 16) : wordAt (bytes ++ wordBytes w) bytes.length = w := by
  have hhigh : byteAt (bytes ++ wordBytes w) bytes.length = w.extractLsb' 8 8 := by simp [byteAt, wordBytes]
  have hlow : byteAt (bytes ++ wordBytes w) (bytes.length + 1) = w.extractLsb' 0 8 := by simp [byteAt, wordBytes]
  rw [wordAt, hhigh, hlow]
  refine BitVec.eq_of_getLsbD_eq fun i hi => ?_
  rw [BitVec.getLsbD_append, BitVec.getLsbD_extractLsb', BitVec.getLsbD_extractLsb']
  by_cases hi8 : i < 8
  · simp [hi8]
  · simp [hi8, show i - 8 < 8 by omega, show 8 + (i - 8) = i by omega]

/-- A frame as a site makes it: a body that fits its kind, the CRC of what is before it, a source that a site can have (R148,
R149). -/
structure LinkFrame.WellMade (f : LinkFrame) : Prop where
  fits : bodyFits f.kind f.body = true
  crc : f.crc = crc16 (framePrefix f.dest f.source f.kind f.body)
  source : f.source ≠ 0 ∧ f.source ≠ 255

theorem completeFrame_wellMade {own : Byte} (hown : own ≠ 0 ∧ own ≠ 255) {kind : FrameKind} {body : List Byte}
    (hfits : bodyFits kind body = true) (dest : Byte) : (completeFrame own dest kind body).WellMade :=
  ⟨hfits, by rw [completeFrame], hown⟩

/-- Elsewhere a well-made frame is read as itself; at its own source it is a clash (R151, R152). -/
theorem LinkFrame.WellMade.judge {f : LinkFrame} (h : f.WellMade) (own : Byte) :
    judge own f.bytes = if f.source = own then .clash else .passed f := by
  have hbody := bodyFits_length h.fits
  have hcount : (numByte f.body.length).toNat = f.body.length := numByte_toNat (by omega)
  have hlen := framePrefix_length f.dest f.source f.kind f.body
  have hword := wordAt_append_wordBytes (framePrefix f.dest f.source f.kind f.body) f.crc
  rw [hlen] at hword
  have htake : f.bytes.take (4 + f.body.length) = framePrefix f.dest f.source f.kind f.body := by
    rw [LinkFrame.bytes, ← hlen, List.take_left']; rfl
  have htotal : f.bytes.length = 6 + f.body.length := by
    rw [LinkFrame.bytes, List.length_append, hlen]; simp [wordBytes]; omega
  have h0 : byteAt f.bytes 0 = f.dest := rfl
  have h1 : byteAt f.bytes 1 = f.source := rfl
  have h2 : byteAt f.bytes 2 = f.kind.code := rfl
  have h3 : byteAt f.bytes 3 = numByte f.body.length := rfl
  have hdrop : (f.bytes.drop 4).take f.body.length = f.body := by
    simp [LinkFrame.bytes, framePrefix]
  unfold Machine.judge
  dsimp only
  rw [h3, hcount, hdrop, htake, h2, frameKindOf_code, h1, h0]
  rw [LinkFrame.bytes, hword, ← h.crc, ← LinkFrame.bytes, htotal]
  have hshort : ¬Config.longestFrame < 6 + f.body.length := by unfold Config.longestFrame; omega
  have hsource : (f.source == 0 || f.source == 255) = false := by
    rw [beq_eq_false_iff_ne.mpr h.source.1, beq_eq_false_iff_ne.mpr h.source.2]; rfl
  rw [hsource]
  simp [hshort, h.fits]

/-! ### The tests of R151 -/

/-- The body that collected bytes hold by their length byte (R151). -/
def collectedBody (bytes : List Byte) : List Byte := (bytes.drop 4).take (byteAt bytes 3).toNat

theorem bodyFits_heard (body : List Byte) :
    bodyFits .heard body
      = (decide ((byteAt body 0).toNat ≤ 6) && decide (body.length = 1 + 4 * (byteAt body 0).toNat)) := by
  cases body with
  | nil => rfl
  | cons b rest => simp [bodyFits]

/-- The tests by the kind that the code names (R151). -/
theorem passesTests_eq (bytes : List Byte) :
    passesTests bytes =
      (decide (6 ≤ bytes.length) && decide (bytes.length ≤ 31) && decide (bytes.length = 6 + (byteAt bytes 3).toNat)
        && crc16 (bytes.take (bytes.length - 2)) == wordAt bytes (bytes.length - 2)
        && (frameKindOf (byteAt bytes 2)).any (fun kind => bodyFits kind (collectedBody bytes))
        && byteAt bytes 1 != 0 && byteAt bytes 1 != 255) := by
  unfold passesTests frameKindOf
  dsimp only
  split <;> simp only [Option.any_some, Option.any_none, bodyFits_heard] <;> rfl

/-- Tests 1 to 5 of R151 in order: the length, the CRC, the kind, the body length of the kind, and the source. -/
theorem passesTests_iff {bytes : List Byte} :
    passesTests bytes = true ↔
      (bytes.length = 6 + (byteAt bytes 3).toNat ∧ bytes.length ≤ 31)
        ∧ crc16 (bytes.take (4 + (byteAt bytes 3).toNat)) = wordAt bytes (4 + (byteAt bytes 3).toNat)
        ∧ (∃ kind, frameKindOf (byteAt bytes 2) = some kind ∧ bodyFits kind (collectedBody bytes) = true)
        ∧ byteAt bytes 1 ≠ 0 ∧ byteAt bytes 1 ≠ 255 := by
  rw [passesTests_eq]
  simp only [Bool.and_eq_true, decide_eq_true_eq, beq_iff_eq, bne_iff_ne, Option.any_eq_true]
  by_cases hlength : bytes.length = 6 + (byteAt bytes 3).toNat
  · have hend : bytes.length - 2 = 4 + (byteAt bytes 3).toNat := by omega
    rw [hend]
    constructor
    · rintro ⟨⟨⟨⟨⟨⟨-, hshort⟩, -⟩, hcrc⟩, hkind⟩, hzero⟩, hall⟩
      exact ⟨⟨hlength, hshort⟩, hcrc, hkind, hzero, hall⟩
    · rintro ⟨⟨-, hshort⟩, hcrc, hkind, hzero, hall⟩
      exact ⟨⟨⟨⟨⟨⟨by omega, hshort⟩, hlength⟩, hcrc⟩, hkind⟩, hzero⟩, hall⟩
  · simp only [hlength, false_and, and_false]

theorem byteAt_drop (bytes : List Byte) (k j : Nat) : byteAt (bytes.drop k) j = byteAt bytes (k + j) := by
  simp [byteAt]

/-- The last two bytes are those of the word read there. -/
theorem wordBytes_wordAt {bytes : List Byte} {k : Nat} (h : bytes.length = k + 2) :
    wordBytes (wordAt bytes k) = bytes.drop k := by
  obtain ⟨a, b, hab⟩ : ∃ a b, bytes.drop k = [a, b] := List.length_eq_two.mp (by rw [List.length_drop]; omega)
  have hhigh : byteAt bytes k = a := by rw [← Nat.add_zero k, ← byteAt_drop, hab]; rfl
  have hlow : byteAt bytes (k + 1) = b := by rw [← byteAt_drop, hab]; rfl
  have hword : wordBytes (a ++ b) = [a, b] := by
    rw [wordBytes, BitVec.extractLsb'_append_eq_left, BitVec.extractLsb'_append_eq_right]
  rw [hab, wordAt, hhigh, hlow, hword]

/-- The bytes before the CRC are those that a frame with the same fields has. -/
theorem take_eq_framePrefix {bytes : List Byte} {kind : FrameKind} (hlength : bytes.length = 6 + (byteAt bytes 3).toNat)
    (hkind : frameKindOf (byteAt bytes 2) = some kind) :
    bytes.take (4 + (byteAt bytes 3).toNat) =
      framePrefix (byteAt bytes 0) (byteAt bytes 1) kind (collectedBody bytes) := by
  match bytes, hlength with
  | dest :: source :: code :: count :: rest, hlength =>
    change rest.length + 4 = 6 + count.toNat at hlength
    have hcode : kind.code = code := code_of_frameKindOf hkind
    have hcount : numByte (rest.take count.toNat).length = count := by
      rw [List.length_take, Nat.min_eq_left (by omega), numByte, BitVec.ofNat_toNat, BitVec.setWidth_eq]
    show (dest :: source :: code :: count :: rest).take (4 + count.toNat)
      = framePrefix dest source kind (rest.take count.toNat)
    rw [framePrefix, hcode, hcount, Nat.add_comm]
    rfl

/-- The tests of R151 pass on the bytes of well-made frames alone. -/
theorem wellMade_of_passesTests {bytes : List Byte} (h : passesTests bytes = true) :
    ∃ f : LinkFrame, f.WellMade ∧ f.bytes = bytes := by
  obtain ⟨⟨hlength, -⟩, hcrc, ⟨kind, hkind, hfits⟩, hsource⟩ := passesTests_iff.mp h
  have hprefix := take_eq_framePrefix hlength hkind
  refine ⟨_, completeFrame_wellMade hsource hfits (byteAt bytes 0), ?_⟩
  rw [LinkFrame.bytes, completeFrame]
  dsimp only
  rw [← hprefix, hcrc, wordBytes_wordAt (by omega), List.take_append_drop]

theorem judge_of_not_passesTests {bytes : List Byte} (h : passesTests bytes = false) (own : Byte) :
    judge own bytes = .discarded := by
  by_contra hjudged
  refine absurd h (ne_false_of_eq_true (passesTests_iff.mpr ?_))
  unfold judge at hjudged
  dsimp only at hjudged
  split at hjudged
  · exact absurd rfl hjudged
  next hlength =>
  split at hjudged
  · exact absurd rfl hjudged
  next hcrc =>
  split at hjudged
  · exact absurd rfl hjudged
  next kind hkind =>
  split at hjudged
  · exact absurd rfl hjudged
  next hfits =>
  split at hjudged
  · exact absurd rfl hjudged
  next hsource =>
  simp only [Bool.or_eq_true, decide_eq_true_eq, bne_iff_ne, not_or, not_lt, ne_eq, not_not] at hlength
  exact ⟨⟨hlength.2, hlength.1.2⟩, by simpa using hcrc, ⟨kind, hkind, by simpa [collectedBody] using hfits⟩,
    by simpa using hsource⟩

end Sys2Proof.Machine

/-! ## The transmitter's waits (R159 to R163) -/

namespace Sys2Proof.Machine

/-! ### Each wait by its cases -/

theorem Link.key_head {l : Link} {head : TxItem} {rest : List TxItem} (h : l.tx = head :: rest) :
    l.key = { l with tx := { head with keyed := true } :: rest, quietSince := none, txState := .sending } := by
  rw [Link.key, h]

theorem Link.enterBackoff_zero (l : Link) : l.enterBackoff 0 = { l with txState := .backoff 0 }.key := by
  rw [Link.enterBackoff]; exact if_pos rfl

theorem Link.enterBackoff_pos {b : Nat} (h : b ≠ 0) (l : Link) : l.enterBackoff b = { l with txState := .backoff b } := by
  rw [Link.enterBackoff]; exact if_neg h

/-- The frame at the head of the queue is keyed by a count of 0 (R160, R161). -/
theorem Link.enterBackoff_keys {l : Link} {head : TxItem} {rest : List TxItem} (h : l.tx = head :: rest) :
    l.enterBackoff 0 = { l with tx := { head with keyed := true } :: rest, quietSince := none, txState := .sending } := by
  rw [Link.enterBackoff_zero, Link.key_head (l := { l with txState := .backoff 0 }) h]

/-- The link after one draw: the register shifted once (R163). -/
def Link.drawn (l : Link) : Link := { l with register := shiftRegister l.register }

/-- Without a held count one is drawn modulo W (R160, R163). -/
theorem Link.idleGapEnd_draws {l : Link} {w : Nat} (h : l.window = some w) :
    l.idleGapEnd none = l.drawn.enterBackoff ((shiftRegister l.register).toNat % w) := by
  show l.drawn.enterBackoff ((shiftRegister l.register).toNat % l.window.getD 1) = _
  rw [h, Option.getD_some]

/-- A channel is quiet for `t` ticks by its stamp: the mark is old, or as many have elapsed (R158, R183). -/
theorem Link.quietFor_iff {l : Link} {m : MarkedStamp} (h : l.quietSince = some m) (now : Time) (t : Nat) :
    l.quietFor now t = true ↔ m.old = true ∨ t ≤ (now - m.time).toNat := by
  rw [Link.quietFor, h]
  dsimp only
  rw [Bool.or_eq_true, decide_eq_true_iff, elapsed]

theorem Link.enterDefer_quiet {l : Link} {now : Time} {idleGap : Nat} (h : l.quietFor now idleGap = true)
    (held : Option Nat) : l.enterDefer now idleGap held = { l with txState := .defer held }.idleGapEnd held :=
  if_pos h

theorem Link.enterDefer_waits {l : Link} {now : Time} {idleGap : Nat} (h : l.quietFor now idleGap = false)
    (held : Option Nat) : l.enterDefer now idleGap held = { l with txState := .defer held } :=
  if_neg (ne_true_of_eq_false h)

/-! ### What the end of a wait can do -/

/-- The count `b` and the register `r` with which BACKOFF is entered: the held count, or one drawn (R160, R163). -/
def Link.Counts (held : Option Nat) (l : Link) (b : Nat) (r : BitVec 16) : Prop :=
  (held = some b ∧ r = l.register) ∨ (held = none ∧ r = shiftRegister l.register ∧ b = r.toNat % l.window.getD 1)

/-- How a frame that waits can proceed: it is deferred, its count runs, or the head of the queue is keyed. -/
inductive Link.Proceeds (held : Option Nat) (l : Link) : Link → Prop where
  | defers : l.Proceeds held { l with txState := .defer held }
  | counts {b : Nat} {r : BitVec 16} (h : l.Counts held b r) :
    l.Proceeds held { l with register := r, txState := .backoff b }
  | keys {r : BitVec 16} {head : TxItem} {rest : List TxItem} (h : r = l.register ∨ r = shiftRegister l.register)
    (hhead : l.tx = head :: rest) :
    l.Proceeds held
      { l with
        register := r, tx := { head with keyed := true } :: rest, quietSince := none, txState := .sending }

theorem Link.Counts.register {held : Option Nat} {l : Link} {b : Nat} {r : BitVec 16} (h : l.Counts held b r) :
    r = l.register ∨ r = shiftRegister l.register :=
  h.imp And.right fun h => h.2.1

theorem Link.Proceeds.enterBackoff {held : Option Nat} {l : Link} {b : Nat} {r : BitVec 16} (h : l.Counts held b r) :
    l.Proceeds held ({ l with register := r }.enterBackoff b) := by
  by_cases hb : b = 0
  · subst hb
    by_cases htx : l.tx = []
    · have hsame : { l with register := r }.enterBackoff 0 = { l with register := r, txState := .backoff 0 } := by
        rw [Link.enterBackoff_zero, Link.key, htx]
      rw [hsame]
      exact .counts h
    · obtain ⟨head, rest, htx⟩ := List.exists_cons_of_ne_nil htx
      rw [Link.enterBackoff_keys (l := { l with register := r }) htx]
      exact .keys h.register htx
  · rw [Link.enterBackoff_pos hb]
    exact .counts h

theorem Link.Proceeds.idleGapEnd (held : Option Nat) (l : Link) : l.Proceeds held (l.idleGapEnd held) := by
  cases held with
  | some b => exact .enterBackoff (l := l) (r := l.register) (.inl ⟨rfl, rfl⟩)
  | none => exact .enterBackoff (l := l) (.inr ⟨rfl, rfl, rfl⟩)

/-- The state of the transmitter before does not show after. -/
theorem Link.Proceeds.of_txState {held : Option Nat} {l l' : Link} {x : TxState}
    (h : { l with txState := x }.Proceeds held l') : l.Proceeds held l' := by
  cases h with
  | defers => exact .defers
  | counts h => exact .counts (l := l) h
  | keys h hhead => exact .keys (l := l) h hhead

theorem Link.Proceeds.enterDefer (now : Time) (idleGap : Nat) (held : Option Nat) (l : Link) :
    l.Proceeds held (l.enterDefer now idleGap held) := by
  cases hquiet : l.quietFor now idleGap with
  | true => rw [Link.enterDefer_quiet hquiet]; exact (Link.Proceeds.idleGapEnd held _).of_txState
  | false => rw [Link.enterDefer_waits hquiet]; exact .defers

theorem Link.Proceeds.key (held : Option Nat) {l : Link} {head : TxItem} {rest : List TxItem} (h : l.tx = head :: rest) :
    l.Proceeds held l.key := by
  rw [Link.key_head h]
  exact .keys (.inl rfl) h

theorem Link.Proceeds.start {l : Link} (h : l.tx ≠ []) (now : Time) (idleGap : Nat) :
    l.Proceeds none (l.start now idleGap) := by
  obtain ⟨head, rest, htx⟩ := List.exists_cons_of_ne_nil h
  unfold Link.start
  split
  · exact .key none htx
  · exact .enterDefer ..

theorem Link.Proceeds.endSpacing {l : Link} (h : l.tx ≠ []) (now : Time) (idleGap : Nat) :
    l.Proceeds none (l.endSpacing now idleGap) := by
  rw [Link.endSpacing, if_neg (by simpa using h)]
  exact .enterDefer ..

end Sys2Proof.Machine

/-! ## The laws of the link: queues, key, backoff and frames (R148 to R164) -/

namespace Sys2Proof.Machine

/-! ### The two queues (R153, R155) -/

/-- The part of the link's law that is about the queues alone. -/
structure Link.QueueLaw (l : Link) : Prop where
  rxSize : l.rx.length ≤ Config.linkQueueSize
  txSize : l.tx.length ≤ Config.linkQueueSize
  classes : l.tx.Pairwise fun a b => a.frame.isHeard = true → b.frame.isHeard = true
  oneHeard : (l.tx.filter fun x => x.frame.isHeard).length ≤ 1

theorem LinkLaw.queues {s : State} (h : LinkLaw s) : s.link.QueueLaw := ⟨h.rxSize, h.txSize, h.classes, h.oneHeard⟩

/-- The law of the queues is about the frames and their order, not about the key. -/
theorem Link.QueueLaw.congr {l l' : Link} (h : l.QueueLaw) (hrx : l'.rx = l.rx)
    (htx : l'.tx.map TxItem.frame = l.tx.map TxItem.frame) : l'.QueueLaw where
  rxSize := by rw [hrx]; exact h.rxSize
  txSize := by
    have hlength := congrArg List.length htx
    rw [List.length_map, List.length_map] at hlength
    rw [hlength]; exact h.txSize
  classes := by
    have hclasses := List.pairwise_map (R := fun a b : LinkFrame => a.isHeard = true → b.isHeard = true)
      (f := TxItem.frame) |>.mpr h.classes
    rw [← htx] at hclasses
    exact List.pairwise_map.mp hclasses
  oneHeard := by
    have hcount := congrArg (List.countP LinkFrame.isHeard) htx
    rw [List.countP_map, List.countP_map] at hcount
    rw [← List.countP_eq_length_filter]
    exact (le_of_eq hcount).trans (by rw [List.countP_eq_length_filter]; exact h.oneHeard)

/-- Frames that leave the queues leave them lawful. -/
theorem Link.QueueLaw.sublist {l l' : Link} (h : l.QueueLaw) (hrx : l'.rx.length ≤ Config.linkQueueSize)
    (htx : l'.tx.Sublist l.tx) : l'.QueueLaw where
  rxSize := hrx
  txSize := htx.length_le.trans h.txSize
  classes := h.classes.sublist htx
  oneHeard := (htx.filter _).length_le.trans h.oneHeard

/-- A frame that joins is one more among those held, in whatever place. -/
theorem insertFrame_perm (f : LinkFrame) (tx : List TxItem) :
    (insertFrame f tx).Perm ({ frame := f, keyed := false } :: tx) := by
  unfold insertFrame
  split
  · exact List.perm_append_singleton _ _
  · refine List.perm_middle.trans (.cons _ ?_)
    exact List.perm_append_comm.trans (List.filter_append_perm _ _)

theorem insertFrame_ne_nil (f : LinkFrame) (tx : List TxItem) : insertFrame f tx ≠ [] := fun h => by
  simpa [h] using (insertFrame_perm f tx).length_eq

theorem insertFrame_nil (f : LinkFrame) : insertFrame f [] = [{ frame := f, keyed := false }] := by
  unfold insertFrame
  split <;> rfl

/-- A frame joins its class: a negotiation frame ahead of every HEARD frame, a HEARD frame where none is held (R155, R156). -/
theorem Link.QueueLaw.insert {l : Link} (h : l.QueueLaw) {f : LinkFrame} (hroom : l.tx.length < Config.linkQueueSize)
    (hnone : f.isHeard = true → ∀ x ∈ l.tx, x.frame.isHeard = false) :
    { l with tx := insertFrame f l.tx }.QueueLaw where
  rxSize := h.rxSize
  txSize := by
    have hlength := (insertFrame_perm f l.tx).length_eq
    rw [List.length_cons] at hlength
    dsimp only
    omega
  classes := by
    cases hf : f.isHeard with
    | true =>
      simp only [insertFrame, hf, if_true]
      exact List.pairwise_append.mpr ⟨h.classes, List.pairwise_singleton .., fun a _ b hb _ => by
        rw [List.mem_singleton.mp hb]; exact hf⟩
    | false =>
      have hahead : ∀ a ∈ l.tx.filter fun x => !x.frame.isHeard, a.frame.isHeard = false := by simp
      have hbehind : ∀ b ∈ l.tx.filter fun x => x.frame.isHeard, b.frame.isHeard = true := by simp
      simp only [insertFrame, hf, Bool.false_eq_true, if_false]
      refine List.pairwise_append.mpr ⟨h.classes.sublist List.filter_sublist, ?_, fun a ha b _ hheard => ?_⟩
      · exact List.pairwise_cons.mpr ⟨fun b hb _ => hbehind b hb, h.classes.sublist List.filter_sublist⟩
      · rw [hahead a ha] at hheard; cases hheard
  oneHeard := by
    rw [((insertFrame_perm f l.tx).filter _).length_eq, List.filter_cons]
    dsimp only
    split
    · next hf =>
      rw [List.filter_eq_nil_iff.mpr fun x hx => by simp [hnone hf x hx]]
      exact le_refl _
    · exact h.oneHeard

/-! ### A frame that waits for the channel -/

/-- A frame waits and none is keyed, so that the quiet-since stamp follows LNK_CD (R158). -/
structure Link.Waits (loaded : Bool) (l : Link) : Prop where
  frame : l.tx ≠ []
  unkeyed : (l.tx.filter TxItem.keyed).length = 0
  quiet : l.quietSince.isSome = true ↔ loaded = true ∧ l.lnkCd = false

theorem Link.Proceeds.rx {held : Option Nat} {l l' : Link} (h : l.Proceeds held l') : l'.rx = l.rx := by
  cases h <;> rfl

theorem Link.Proceeds.lnkCd {held : Option Nat} {l l' : Link} (h : l.Proceeds held l') : l'.lnkCd = l.lnkCd := by
  cases h <;> rfl

/-- Keying marks the head frame and moves none. -/
theorem Link.Proceeds.frames {held : Option Nat} {l l' : Link} (h : l.Proceeds held l') :
    l'.tx.map TxItem.frame = l.tx.map TxItem.frame := by
  cases h with
  | defers => rfl
  | counts => rfl
  | keys _ hhead => rw [hhead]; rfl

/-- In RUNNING a transmitter that is not MUTED is that of a part without listen-only (R167). -/
theorem LinkLaw.audible {s : State} (h : LinkLaw s) (hrunning : s.running = true) (hmuted : s.link.txState ≠ .muted) :
    s.port.listenOnly = false := by
  refine by_contra fun hlisten => hmuted (h.muted.mpr ⟨?_, Bool.not_eq_false _ ▸ hlisten⟩)
  simp_all [State.running, State.loaded]

/-- An active transmitter is that of a part in RUNNING without listen-only (R158). -/
theorem LinkLaw.active {s : State} (h : LinkLaw s) (hidle : s.link.txState ≠ .idle) (hmuted : s.link.txState ≠ .muted) :
    s.running = true ∧ s.port.listenOnly = false := by
  have hrunning : s.running = true := by
    by_contra hnot
    rcases h.notRunning (Bool.not_eq_true _ ▸ hnot) with hst | hst
    · exact hidle hst
    · exact hmuted hst
  exact ⟨hrunning, h.audible hrunning hmuted⟩

/-- The link's law of a part in RUNNING without listen-only, which is never MUTED. -/
theorem LinkLaw.of_active {s : State} {l : Link} (hreset : ResetLaw s)
    (hactive : s.running = true ∧ s.port.listenOnly = false) (hqueues : l.QueueLaw)
    (hkeyed : (l.tx.filter TxItem.keyed).length = if l.txState = .sending then 1 else 0)
    (hsilent : l.txState = .idle → l.tx = [])
    (hwaits : (∃ held, l.txState = .defer held) ∨ (∃ b, l.txState = .backoff b) → l.tx ≠ [])
    (hmuted : l.txState ≠ .muted)
    (hquiet : l.quietSince.isSome = true ↔ s.loaded = true ∧ l.lnkCd = false ∧ l.txState ≠ .sending) :
    LinkLaw (s.withLink l) where
  reset := hreset
  rxSize := hqueues.rxSize
  txSize := hqueues.txSize
  classes := hqueues.classes
  oneHeard := hqueues.oneHeard
  keyed := hkeyed
  silent := fun h => h.elim hsilent fun h => absurd h hmuted
  waits := hwaits
  muted := ⟨fun h => absurd h hmuted, fun h => absurd h.2 (by simp [hactive.2])⟩
  notRunning := fun h => absurd h (by simpa [State.running] using hactive.1)
  quiet := hquiet

/-- A frame that waits proceeds lawfully (R158 to R161). -/
theorem LinkLaw.proceeds {s : State} {held : Option Nat} {l l' : Link} (h : l.Proceeds held l') (hreset : ResetLaw s)
    (hactive : s.running = true ∧ s.port.listenOnly = false) (hqueues : l.QueueLaw) (hwaits : l.Waits s.loaded) :
    LinkLaw (s.withLink l') := by
  have hqueues' : l'.QueueLaw := hqueues.congr h.rx h.frames
  cases h with
  | defers =>
    exact .of_active hreset hactive hqueues' (by simpa using hwaits.unkeyed) nofun (fun _ => hwaits.frame) nofun
      (by simpa using hwaits.quiet)
  | counts =>
    exact .of_active hreset hactive hqueues' (by simpa using hwaits.unkeyed) nofun (fun _ => hwaits.frame) nofun
      (by simpa using hwaits.quiet)
  | @keys r head rest hr hhead =>
    have hrest : (rest.filter TxItem.keyed).length = 0 := by
      have hunkeyed := hwaits.unkeyed
      rw [hhead, List.filter_cons] at hunkeyed
      split at hunkeyed
      · cases hunkeyed
      · exact hunkeyed
    exact .of_active hreset hactive hqueues' (by simpa using hrest) nofun (fun _ => by simp) nofun (by simp)

/-! ### The backoff (R163, R164) -/

/-- A shift leaves no register empty: the bit that is lost comes back as the feedback (R163). -/
theorem shiftRegister_ne_zero {r : BitVec 16} (h : r ≠ 0) : shiftRegister r ≠ 0 := by
  intro hzero
  have hbit (i : Nat) : (shiftRegister r).getLsbD i = false := by rw [hzero]; exact BitVec.getLsbD_zero
  have hlow : ∀ i < 15, r.getLsbD i = false := fun i hi => by
    have hshifted := hbit (i + 1)
    simp only [shiftRegister, BitVec.getLsbD_or, BitVec.getLsbD_shiftLeft, Bool.or_eq_false_iff] at hshifted
    simpa [show i + 1 < 16 by omega] using hshifted.1
  have hfeedback := hbit 0
  simp only [shiftRegister, hlow 13 (by omega), hlow 12 (by omega), hlow 10 (by omega)] at hfeedback
  have hhigh : r.getLsbD 15 = false := by
    cases htop : r.getLsbD 15
    · rfl
    · simp [htop] at hfeedback
  refine h (BitVec.eq_of_getLsbD_eq fun i hi => ?_)
  have hempty : (0 : BitVec 16).getLsbD i = false := BitVec.getLsbD_zero
  rw [hempty]
  by_cases htop : i = 15
  · rw [htop]; exact hhigh
  · exact hlow i (by omega)

/-- The law of the backoff where the register stays or is shifted once, and W stays. -/
theorem BackoffLaw.of_link {s t : State} (h : BackoffLaw s) (hreset : ResetLaw s → ResetLaw t)
    (hloaded : t.loaded = true → s.loaded = true)
    (hregister : t.link.register = s.link.register ∨ t.link.register = shiftRegister s.link.register)
    (hwindow : t.link.window = s.link.window) (hcount : ∀ b, t.link.txState = .backoff b → b ≤ 63)
    (hheld : ∀ b, t.link.txState = .defer (some b) → 1 ≤ b ∧ b ≤ 63) : BackoffLaw t where
  reset := hreset h.reset
  window := by rw [hwindow]; exact h.window
  seeded := fun hl => by
    obtain ⟨hseeded, hsome⟩ := h.seeded (hloaded hl)
    refine ⟨?_, by rw [hwindow]; exact hsome⟩
    rcases hregister with hr | hr <;> rw [hr]
    · exact hseeded
    · exact shiftRegister_ne_zero hseeded
  count := hcount
  held := hheld

/-- A count drawn modulo W is at most 63 (R160, R163). -/
theorem BackoffLaw.draw_le {s : State} (h : BackoffLaw s) (n : Nat) : n % s.link.window.getD 1 ≤ 63 := by
  cases hw : s.link.window with
  | none => rw [Option.getD_none, Nat.mod_one]; omega
  | some w =>
    have hmod := Nat.mod_lt n (y := w)
    rcases h.window w hw with rfl | rfl | rfl | rfl | rfl <;>
      exact Nat.le_of_lt_succ (lt_of_lt_of_le (hmod (by decide)) (by decide))

theorem BackoffLaw.proceeds {s : State} {held : Option Nat} {l l' : Link} (h : l.Proceeds held l') (hlaw : BackoffLaw s)
    (hsame : l.register = s.link.register ∧ l.window = s.link.window)
    (hheld : ∀ b, held = some b → 1 ≤ b ∧ b ≤ 63) :
    BackoffLaw (s.withLink l') := by
  obtain ⟨hregister, hwindow⟩ := hsame
  cases h with
  | defers =>
    exact hlaw.of_link id id (.inl hregister) hwindow nofun fun b hb => hheld b (TxState.defer.inj hb)
  | @counts b r h =>
    refine hlaw.of_link id id (hregister ▸ h.register) hwindow (fun c hc => ?_) nofun
    obtain rfl : b = c := TxState.backoff.inj hc
    rcases h with ⟨hb, -⟩ | ⟨-, -, rfl⟩
    · exact (hheld b hb).2
    · rw [hwindow]; exact hlaw.draw_le _
  | keys hr _ => exact hlaw.of_link id id (hregister ▸ hr) hwindow nofun nofun

/-! ### The frames that wait (R148, R149, R151) -/

/-- Frames that stay pass where they passed. -/
theorem FrameLaw.of_frames {s t : State} (h : FrameLaw s) (hi : ImageLaw s → ImageLaw t)
    (hframes : t.link.tx.map TxItem.frame ⊆ s.link.tx.map TxItem.frame) : FrameLaw t where
  image := hi h.image
  accepted := fun x hx => by
    obtain ⟨y, hy, hyx⟩ := List.mem_map.mp (hframes (List.mem_map_of_mem hx))
    rw [← hyx]
    exact h.accepted y hy

end Sys2Proof.Machine

/-! ## The laws of the link under offers (R148, R155, R156, R159) -/

namespace Sys2Proof.Machine

/-! ### The verdict on an offer (R155, R156) -/

/-- What an offer that is not discarded has met: RUNNING, a transmitter that is not MUTED; accepted, there is room, and for a
HEARD frame no other; displacing, the frame is no HEARD, and one waits that is not keyed. -/
theorem Link.verdict_cases (running : Bool) (kind : FrameKind) (l : Link) :
    l.verdict running kind = .discarded
      ∨ (running = true ∧ l.txState ≠ .muted)
        ∧ ((l.verdict running kind = .accepted ∧ l.tx.length < Config.linkQueueSize
            ∧ (kind = .heard → ∀ x ∈ l.tx, x.frame.isHeard = false))
          ∨ (l.verdict running kind = .displacing ∧ kind ≠ .heard
            ∧ ∃ x ∈ l.tx, x.frame.isHeard = true ∧ x.keyed = false)) := by
  unfold Link.verdict
  split
  · exact .inl rfl
  next hopen =>
  have hopen : running = true ∧ l.txState ≠ .muted := by simpa using hopen
  split
  · next hkind =>
    split
    · exact .inl rfl
    · next hroom =>
      simp only [Bool.or_eq_true, List.any_eq_true, not_or, decide_eq_true_eq, not_le, not_exists, not_and,
        Bool.not_eq_true] at hroom
      exact .inr ⟨hopen, .inl ⟨rfl, hroom.2, fun _ => hroom.1⟩⟩
  next hkind =>
  split
  · next hroom => exact .inr ⟨hopen, .inl ⟨rfl, hroom, fun h => absurd h hkind⟩⟩
  split
  · next hwaits =>
    simp only [List.any_eq_true, Bool.and_eq_true, Bool.not_eq_true'] at hwaits
    exact .inr ⟨hopen, .inr ⟨rfl, hkind, hwaits⟩⟩
  · exact .inl rfl

/-- The queue without the HEARD frame that an offer displaces (R156). -/
def Link.undisplaced (l : Link) : List TxItem := l.tx.filter fun x => !(x.frame.isHeard && !x.keyed)

/-- What an offer that is not discarded does to the link, by its verdict (R156, R159). -/
inductive Link.Offered (f : LinkFrame) (l : Link) : Link → Prop where
  | starts {l' : Link} (hroom : l.tx.length < Config.linkQueueSize)
    (hnone : f.isHeard = true → ∀ x ∈ l.tx, x.frame.isHeard = false) (hidle : l.txState = .idle ∧ l.tx = [])
    (h : { l with tx := insertFrame f l.tx }.Proceeds none l') : l.Offered f l'
  | joins (hroom : l.tx.length < Config.linkQueueSize)
    (hnone : f.isHeard = true → ∀ x ∈ l.tx, x.frame.isHeard = false) (hbusy : ¬(l.txState = .idle ∧ l.tx = [])) :
    l.Offered f { l with tx := insertFrame f l.tx }
  | displaces (hkind : f.isHeard = false) (hwaits : ∃ x ∈ l.tx, x.frame.isHeard = true ∧ x.keyed = false) :
    l.Offered f { l with tx := insertFrame f l.undisplaced }

theorem LinkFrame.isHeard_iff (f : LinkFrame) : f.isHeard = true ↔ f.kind = .heard := by
  simp [LinkFrame.isHeard]

theorem Link.offer_offered (now : Time) (idleGap : Nat) (running : Bool) (f : LinkFrame) (l : Link) :
    l.offer now idleGap running f = l
      ∨ (running = true ∧ l.txState ≠ .muted) ∧ l.Offered f (l.offer now idleGap running f) := by
  rcases l.verdict_cases running f.kind with
    hverdict | ⟨hopen, ⟨hverdict, hroom, hnone⟩ | ⟨hverdict, hkind, hwaits⟩⟩
  · exact .inl (Link.offer_discarded hverdict now idleGap)
  · refine .inr ⟨hopen, ?_⟩
    rw [← LinkFrame.isHeard_iff] at hnone
    rw [Link.offer, hverdict]
    dsimp only
    split
    · next hidle =>
      exact .starts hroom hnone hidle (.start (l := { l with tx := insertFrame f l.tx }) (insertFrame_ne_nil _ _) _ _)
    · next hbusy => exact .joins hroom hnone hbusy
  · refine .inr ⟨hopen, ?_⟩
    rw [Link.offer, hverdict]
    exact .displaces (by simpa [LinkFrame.isHeard] using hkind) hwaits

/-! ### The laws under an offer -/

theorem Link.undisplaced_length {l : Link} (h : ∃ x ∈ l.tx, x.frame.isHeard = true ∧ x.keyed = false) :
    l.undisplaced.length < l.tx.length := by
  obtain ⟨x, hx, hheard, hwaits⟩ := h
  exact List.length_filter_lt_length_iff_exists.mpr ⟨x, hx, by simp [hheard, hwaits]⟩

theorem Link.undisplaced_sublist (l : Link) : l.undisplaced.Sublist l.tx := List.filter_sublist

/-- A keyed frame is never displaced (R156). -/
theorem Link.undisplaced_keyed (l : Link) : l.undisplaced.filter TxItem.keyed = l.tx.filter TxItem.keyed := by
  rw [Link.undisplaced, List.filter_filter]
  refine congrArg (fun p => l.tx.filter p) (funext fun x => ?_)
  cases x.keyed <;> simp

/-- A frame that joins is not keyed. -/
theorem insertFrame_keyed (f : LinkFrame) (tx : List TxItem) :
    ((insertFrame f tx).filter TxItem.keyed).length = (tx.filter TxItem.keyed).length :=
  ((insertFrame_perm f tx).filter _).length_eq

/-- What a frame of the law's part reads stays. -/
theorem LinkLaw.congr {s t : State} (hlink : t.link = s.link) (hreset : t.resetHeld = s.resetHeld)
    (hloader : t.loader = s.loader) (hlisten : t.port.listenOnly = s.port.listenOnly) (h : LinkLaw s) : LinkLaw t where
  reset := by simpa only [ResetLaw, State.loaded, hreset, hloader] using h.reset
  rxSize := by rw [hlink]; exact h.rxSize
  txSize := by rw [hlink]; exact h.txSize
  classes := by rw [hlink]; exact h.classes
  oneHeard := by rw [hlink]; exact h.oneHeard
  keyed := by rw [hlink]; exact h.keyed
  silent := by rw [hlink]; exact h.silent
  waits := by rw [hlink]; exact h.waits
  muted := by simpa only [State.loaded, hlink, hloader, hlisten] using h.muted
  notRunning := by simpa only [State.running, hlink, hloader] using h.notRunning
  quiet := by simpa only [State.loaded, hlink, hloader] using h.quiet

theorem LinkLaw.offered {s : State} {f : LinkFrame} {l : Link} (h : LinkLaw s) (hrunning : s.running = true)
    (hmuted : s.link.txState ≠ .muted) (ho : s.link.Offered f l) : LinkLaw (s.withLink l) := by
  have hactive := And.intro hrunning (h.audible hrunning hmuted)
  cases ho with
  | starts hroom hnone hidle hp =>
    obtain ⟨hidle, hempty⟩ := hidle
    refine .proceeds hp h.reset hactive (h.queues.insert hroom hnone)
      { frame := insertFrame_ne_nil _ _, unkeyed := ?_, quiet := ?_ }
    · rw [insertFrame_keyed, hempty]; rfl
    · show s.link.quietSince.isSome = true ↔ _
      rw [h.quiet]; simp [hidle]
  | joins hroom hnone hbusy =>
    exact .of_active h.reset hactive (h.queues.insert hroom hnone) ((insertFrame_keyed f _).trans h.keyed)
      (fun hst => absurd ⟨hst, h.silent (.inl hst)⟩ hbusy) (fun _ => insertFrame_ne_nil _ _) hmuted h.quiet
  | displaces hkind hwaits =>
    have hlength := Link.undisplaced_length hwaits
    have hqueues : { s.link with tx := s.link.undisplaced }.QueueLaw :=
      h.queues.sublist h.rxSize s.link.undisplaced_sublist
    refine .of_active h.reset hactive
      (hqueues.insert (lt_of_lt_of_le hlength h.txSize) fun hheard => by simp [hkind] at hheard) ?_
      (fun hst => ?_) (fun _ => insertFrame_ne_nil _ _) hmuted h.quiet
    · exact (insertFrame_keyed f _).trans ((congrArg List.length s.link.undisplaced_keyed).trans h.keyed)
    · have hempty : s.link.tx = [] := h.silent (.inl hst)
      simp [hempty] at hlength

theorem BackoffLaw.offered {s : State} {f : LinkFrame} {l : Link} (h : BackoffLaw s) (ho : s.link.Offered f l) :
    BackoffLaw (s.withLink l) := by
  cases ho with
  | starts _ _ _ hp => exact .proceeds hp h ⟨rfl, rfl⟩ nofun
  | joins => exact h.of_link id id (.inl rfl) rfl h.count h.held
  | displaces => exact h.of_link id id (.inl rfl) rfl h.count h.held

/-- The frames after an offer are those before and the one offered. -/
theorem Link.Offered.frames {f : LinkFrame} {l l' : Link} (h : l.Offered f l') :
    ∀ x ∈ l'.tx, x.frame = f ∨ ∃ y ∈ l.tx, y.frame = x.frame := by
  have hinsert (tx : List TxItem) (htx : tx ⊆ l.tx) : ∀ x ∈ insertFrame f tx, x.frame = f ∨ ∃ y ∈ l.tx, y.frame = x.frame :=
    fun x hx => by
      rcases List.mem_cons.mp ((insertFrame_perm f tx).mem_iff.mp hx) with rfl | hx
      · exact .inl rfl
      · exact .inr ⟨x, htx hx, rfl⟩
  cases h with
  | starts _ _ _ hp =>
    intro x hx
    have hframe := List.mem_map_of_mem (f := TxItem.frame) hx
    rw [hp.frames] at hframe
    obtain ⟨y, hy, hyx⟩ := List.mem_map.mp hframe
    rw [← hyx]
    exact hinsert l.tx (List.Subset.refl _) y hy
  | joins => exact hinsert l.tx (List.Subset.refl _)
  | displaces => exact hinsert l.undisplaced l.undisplaced_sublist.subset

theorem FrameLaw.offered {s : State} {f : LinkFrame} {l : Link} (h : FrameLaw s) (hf : f.WellMade)
    (ho : s.link.Offered f l) : FrameLaw (s.withLink l) where
  image := .congr (s := s) rfl rfl rfl h.image
  accepted := fun x hx other hother => by
    rcases ho.frames x hx with hxf | ⟨y, hy, hyx⟩
    · rw [hxf] at hother ⊢
      rw [hf.judge, if_neg hother.symm]
    · rw [← hyx] at hother ⊢
      exact h.accepted y hy other hother

end Sys2Proof.Machine

/-! ## The laws of the link under every operation -/

namespace Sys2Proof.Machine

/-! ### Changes that keep the laws -/

/-- From `s` to `t` each of the three laws of the link is kept. -/
structure KeepsLinkLaws (s t : State) : Prop where
  link : LinkLaw s → LinkLaw t
  backoff : BackoffLaw s → BackoffLaw t
  frames : FrameLaw s → FrameLaw t

theorem KeepsLinkLaws.refl (s : State) : KeepsLinkLaws s s := ⟨id, id, id⟩

theorem KeepsLinkLaws.trans {s t u : State} (h : KeepsLinkLaws s t) (k : KeepsLinkLaws t u) : KeepsLinkLaws s u :=
  ⟨k.link ∘ h.link, k.backoff ∘ h.backoff, k.frames ∘ h.frames⟩

/-- What the laws of the link read stays. -/
theorem KeepsLinkLaws.of_blocks {s t : State}
    (hsame : t.link = s.link ∧ t.resetHeld = s.resetHeld ∧ t.loader = s.loader
      ∧ t.port.listenOnly = s.port.listenOnly) : KeepsLinkLaws s t := by
  obtain ⟨hlink, hreset, hloader, hlisten⟩ := hsame
  have hloaded : t.loaded = s.loaded := by simp only [State.loaded, hloader]
  refine ⟨.congr hlink hreset hloader hlisten, fun h => ?_, fun h => ?_⟩
  · exact h.of_link (fun hr => by rwa [ResetLaw, hreset, hloaded]) (fun hl => hloaded ▸ hl) (.inl (by rw [hlink]))
      (by rw [hlink]) (by rw [hlink]; exact h.count) (by rw [hlink]; exact h.held)
  · exact h.of_frames (.congr hreset hloaded (by rw [hloader])) (by rw [hlink]; exact List.Subset.refl _)

theorem KeepsLinkLaws.then {s t u : State} (h : KeepsLinkLaws s t)
    (hsame : u.link = t.link ∧ u.resetHeld = t.resetHeld ∧ u.loader = t.loader
      ∧ u.port.listenOnly = t.port.listenOnly) : KeepsLinkLaws s u :=
  h.trans (.of_blocks hsame)

theorem KeepsLinkLaws.bump (c : Counter) (s : State) : KeepsLinkLaws s (s.bump c) := .of_blocks (by simp)

theorem KeepsLinkLaws.evalAt (i : Fin 64) (s : State) : KeepsLinkLaws s (s.evalAt i) := .of_blocks (by simp)

/-- An offer whose body fits its kind keeps the laws, whatever its verdict. -/
theorem KeepsLinkLaws.offer {kind : FrameKind} {body : List Byte} (hfits : bodyFits kind body = true) (dest : Byte)
    (s : State) : KeepsLinkLaws s (s.offer dest kind body) := by
  let f := completeFrame s.ownSite dest kind body
  let l := s.link.offer s.now (s.par .idleGap) s.running f
  have hlink : (s.offer dest kind body).link = l := State.offer_link dest kind body s
  rcases s.link.offer_offered s.now (s.par .idleGap) s.running f with hsame | ⟨⟨hrunning, hmuted⟩, ho⟩
  · exact .of_blocks (by simp [hlink, l, hsame])
  · have hloaded : s.loaded = true := by simp_all [State.running, State.loaded]
    have hoffered : KeepsLinkLaws s (s.withLink l) :=
      ⟨fun h => h.offered hrunning hmuted ho, fun h => h.offered ho, fun h =>
        h.offered (completeFrame_wellMade (h.image.site hloaded) hfits dest) ho⟩
    exact hoffered.then (by simp [hlink])

/-! ### The bodies of the part's own frames fit their kinds (00_scope.md, 7.2) -/

theorem askBody_fits (d : Departure) : bodyFits .ask (askBody d) = true := rfl

theorem answerBody_fits_take (r : Radio) (sequence last : Byte) : bodyFits .take (answerBody r sequence last) = true := rfl

theorem answerBody_fits_decline (r : Radio) (sequence last : Byte) :
    bodyFits .decline (answerBody r sequence last) = true := rfl

theorem homedBody_fits (e : RosterEntry) : bodyFits .homed (homedBody e) = true := rfl

theorem heardBody_fits {pairs : List (Radio × Nat)} (h : pairs.length ≤ 6) : bodyFits .heard (heardBody pairs) = true := by
  have hcount : (byteAt (heardBody pairs) 0).toNat = pairs.length := numByte_toNat (by omega)
  have hlength : (heardBody pairs).length = 1 + 4 * pairs.length := by
    simp [heardBody, radioBytes, List.length_flatMap]; omega
  rw [bodyFits_heard, hcount, hlength]
  simp [h]

/-! ### Departures -/

theorem KeepsLinkLaws.announce (e : RosterEntry) (s : State) : KeepsLinkLaws s (s.announce e) :=
  .offer (homedBody_fits e) 0 s

theorem KeepsLinkLaws.offerAsk (d : Departure) (s : State) : KeepsLinkLaws s (s.offerAsk d) :=
  .offer (askBody_fits d) _ s

theorem KeepsLinkLaws.openDeparture (i : Fin 64) (n : Fin 8) (s : State) : KeepsLinkLaws s (s.openDeparture i n) := by
  unfold State.openDeparture
  split
  · exact .trans (.trans (.of_blocks (by simp)) (.offerAsk _ _)) (.bump _ _)
  · exact .refl s

theorem KeepsLinkLaws.arbiter (s : State) : KeepsLinkLaws s s.arbiter := by
  rcases s.arbiter_cases with hsame | ⟨i, n, -, hopen, -⟩
  · rw [hsame]; exact .refl s
  · rw [hopen]; exact .openDeparture i n s

theorem KeepsLinkLaws.revert_arbiter (d : Departure) (b : Bool) (c : Counter) (s : State) :
    KeepsLinkLaws s ((s.revert d).bumpIf b c).arbiter :=
  .trans (.of_blocks (by simp)) (.arbiter _)

theorem KeepsLinkLaws.depart (i : Fin 64) (r : Radio) (site : Byte) (o : Departed) (s : State) :
    KeepsLinkLaws s (s.depart i r site o) := by
  have hgone : KeepsLinkLaws s (s.gone i r site o) := .of_blocks (by simp [State.gone])
  rw [State.depart_eq]
  split
  · exact hgone.trans (.arbiter _)
  · exact hgone

theorem KeepsLinkLaws.leaveEnds (d : Departure) (s : State) : KeepsLinkLaws s (s.leaveEnds d) := by
  unfold State.leaveEnds
  split
  · exact .revert_arbiter d true .steerFailed s
  · exact .depart _ _ _ _ s

theorem KeepsLinkLaws.resendAsk (p : Fin 4) (d : Departure) (s : State) : KeepsLinkLaws s (s.resendAsk p d) :=
  .trans (.of_blocks (by simp)) (.offerAsk _ _)

theorem KeepsLinkLaws.dwellExpires (i : Fin 64) (e : RosterEntry) (s : State) : KeepsLinkLaws s (s.dwellExpires i e) := by
  have hundwelt : KeepsLinkLaws s (s.updateEntry i fun e => { e with dwell := none }) := .of_blocks (by simp)
  unfold State.dwellExpires
  dsimp only
  split
  · split
    · split
      · exact hundwelt.trans (.openDeparture _ _ _)
      · exact hundwelt
    · exact hundwelt.then (by simp)
  · exact hundwelt

theorem KeepsLinkLaws.acceptTake (p : Fin 4) (d : Departure) (h : Nat) (s : State) :
    KeepsLinkLaws s (s.acceptTake p d h) := by
  have htaken (ticks : Nat) : KeepsLinkLaws s (s.takeAccepted p d ticks) := .of_blocks (by simp [State.takeAccepted])
  rw [State.acceptTake_eq]
  split
  · exact (htaken _).trans (.leaveEnds _ _)
  · exact htaken _

/-! ### Observations (R16) -/

theorem KeepsLinkLaws.home (i : Fin 64) (o : Observation) (s : State) : KeepsLinkLaws s (s.home i o) :=
  .trans (.trans (.of_blocks (by simp)) (.announce _ (s.createEntry i (s.newHomed o)))) (.evalAt _ _)

theorem KeepsLinkLaws.homeOrRefuse (o : Observation) (s : State) : KeepsLinkLaws s (s.homeOrRefuse o) := by
  unfold State.homeOrRefuse
  split
  · exact .refl s
  · split
    · split
      · exact .home _ o s
      · exact .of_blocks (by simp)
    · exact .of_blocks (by simp)

theorem KeepsLinkLaws.arrive (i : Fin 64) (e : RosterEntry) (o : Observation) (s : State) :
    KeepsLinkLaws s (s.arrive i e o) :=
  .trans (.trans (.of_blocks (by simp)) (.announce _ (s.updateEntry i (s.arrived o)))) (.evalAt _ _)

theorem KeepsLinkLaws.hearLeaving (i : Fin 64) (r : Radio) (o : Observation) (s : State) :
    KeepsLinkLaws s (s.hearLeaving i r o) := by
  have hrefreshed : KeepsLinkLaws s (s.updateEntry i (s.refreshed o)) := .of_blocks (by simp)
  unfold State.hearLeaving
  dsimp only
  split
  · split
    · exact hrefreshed.trans (.revert_arbiter _ _ _ _)
    · exact hrefreshed
  · exact hrefreshed.then (by simp)

theorem KeepsLinkLaws.hearRostered (i : Fin 64) (e : RosterEntry) (o : Observation) (s : State) :
    KeepsLinkLaws s (s.hearRostered i e o) := by
  unfold State.hearRostered
  split
  · exact .of_blocks (by simp)
  · exact .of_blocks (by simp)
  · exact .hearLeaving i _ o s
  · exact .arrive i e o s

theorem KeepsLinkLaws.deliver (o : Observation) (s : State) : KeepsLinkLaws s (s.deliver o) := by
  unfold State.deliver
  split
  · split
    · exact .of_blocks (by simp)
    · exact .homeOrRefuse o s
  · split
    · exact .of_blocks (by simp)
    · split
      · exact .hearRostered _ _ o s
      · exact .refl s

theorem KeepsLinkLaws.takeSlot (frame : List Byte) (s : State) (p : Fin 8) : KeepsLinkLaws s (s.takeSlot frame p) := by
  unfold State.takeSlot State.admitThenDeliver
  dsimp only
  split
  · split
    · exact .trans (.of_blocks (by simp)) (.deliver _ _)
    · exact .of_blocks (by simp)
  · exact .of_blocks (by simp)

theorem KeepsLinkLaws.takeFrame (frame : List Byte) (s : State) : KeepsLinkLaws s (s.takeFrame frame) := by
  have hslots (u : State) : KeepsLinkLaws u (u.takeSlots frame) :=
    State.takeSlots_induct (P := KeepsLinkLaws u) frame (fun t p h => h.trans (.takeSlot frame t p)) u (.refl u)
  unfold State.takeFrame
  dsimp only
  split
  · exact .trans (.of_blocks (by simp)) (hslots _)
  · exact .trans (.of_blocks (by simp)) (hslots _)
  · exact .refl s

/-! ### Frames from neighbours -/

theorem KeepsLinkLaws.receiveTake (f : LinkFrame) (s : State) : KeepsLinkLaws s (s.receiveTake f) := by
  unfold State.receiveTake
  split
  · split
    · exact .acceptTake _ _ _ s
    · exact .refl s
  · exact .refl s

theorem KeepsLinkLaws.receiveDecline (f : LinkFrame) (s : State) : KeepsLinkLaws s (s.receiveDecline f) := by
  unfold State.receiveDecline
  split
  · split
    · exact .revert_arbiter _ true .asksDeclined s
    · exact .refl s
  · exact .refl s

theorem KeepsLinkLaws.offerTake (source : Byte) (r : Radio) (sequence : Byte) (s : State) :
    KeepsLinkLaws s (s.offerTake source r sequence) :=
  .offer (answerBody_fits_take ..) source s

theorem KeepsLinkLaws.receiveAsk (f : LinkFrame) (s : State) : KeepsLinkLaws s (s.receiveAsk f) := by
  unfold State.receiveAsk
  dsimp only
  split
  · exact .refl s
  · exact .offer (answerBody_fits_decline ..) _ s
  · exact .trans (.of_blocks (by simp)) (.offerTake _ _ _ _)
  · exact .trans (.trans (.of_blocks (by simp)) (.offerTake _ _ _ _)) (.bump _ _)

theorem KeepsLinkLaws.conflict (i : Fin 64) (e : RosterEntry) (source : Byte) (c : Option (BitVec 4)) (s : State) :
    KeepsLinkLaws s (s.conflict i e source c) := by
  unfold State.conflict
  split
  · exact .announce e s
  · exact .depart _ _ _ _ s

theorem KeepsLinkLaws.receiveHomed (f : LinkFrame) (s : State) : KeepsLinkLaws s (s.receiveHomed f) := by
  unfold State.receiveHomed
  dsimp only
  split
  · exact .refl s
  split
  · exact .refl s
  split
  · exact .of_blocks (by simp)
  · exact .conflict _ _ _ _ s
  · exact .conflict _ _ _ _ s
  · split
    · exact .trans (.of_blocks (by simp)) (.depart _ _ _ _ _)
    · exact .conflict _ _ _ _ s

theorem KeepsLinkLaws.negotiate (f : LinkFrame) (s : State) : KeepsLinkLaws s (s.negotiate f) := by
  unfold State.negotiate
  split
  · exact .refl s
  · exact .receiveAsk f s
  · exact .receiveTake f s
  · exact .receiveDecline f s
  · exact .receiveHomed f s

theorem KeepsLinkLaws.dispatchNeighbour (n : Fin 8) (f : LinkFrame) (s : State) :
    KeepsLinkLaws s (s.dispatchNeighbour n f) := by
  have heval (b : Bool) : KeepsLinkLaws s (if b then (s.hearFrom n).evalAll else s.hearFrom n) := by
    cases b <;> exact .of_blocks (by simp)
  unfold State.dispatchNeighbour
  dsimp only
  split
  · exact .of_blocks (by simp)
  · split
    · exact (heval _).trans (.negotiate f _)
    · exact heval _

/-- The head frame leaves the receive queue before anything is done with it (R154). -/
theorem KeepsLinkLaws.taken {s : State} {f : LinkFrame} {rest : List LinkFrame} (h : s.link.rx = f :: rest) :
    KeepsLinkLaws s (s.withLink { s.link with rx := rest }) where
  link := fun hs => 
    { hs with
      rxSize := by
        have hsize := hs.rxSize
        rw [h, List.length_cons] at hsize
        exact (Nat.le_succ _).trans hsize }
  backoff := fun hs => { hs with }
  frames := fun hs => hs.of_frames (.congr (s := s) rfl rfl rfl) (List.Subset.refl _)

theorem KeepsLinkLaws.dispatchFrame {s : State} {f : LinkFrame} {rest : List LinkFrame} (h : s.link.rx = f :: rest) :
    KeepsLinkLaws s (s.dispatchFrame f rest) := by
  refine (KeepsLinkLaws.taken h).trans ?_
  unfold State.dispatchFrame
  dsimp only
  split
  · exact .dispatchNeighbour _ f _
  · unfold State.dispatchStranger
    split
    · exact .refl _
    · split
      · exact .of_blocks (by simp)
      · exact .negotiate f _

/-! ### HEARD notices -/

theorem StrayTracker.pairs_length (taken : List (Fin 32)) (t : StrayTracker) : (t.pairs taken).length ≤ taken.length :=
  List.length_filterMap_le _ _

theorem KeepsLinkLaws.composeHeard {taken : List (Fin 32)} (h : taken.length ≤ 6) (s : State) :
    KeepsLinkLaws s (s.composeHeard taken) := by
  have hoffered := KeepsLinkLaws.offer (heardBody_fits ((s.strays.pairs_length taken).trans h)) 0 s
  unfold State.composeHeard
  dsimp only
  split
  · exact hoffered.then (by simp)
  · exact hoffered

theorem KeepsLinkLaws.composeNotice (s : State) : KeepsLinkLaws s s.composeNotice := by
  unfold State.composeNotice
  dsimp only
  split
  · exact .refl s
  split
  · exact .composeHeard (List.length_take_le _ _) s
  split
  · exact .offer (heardBody_fits (pairs := []) (Nat.zero_le 6)) 0 s
  · exact .refl s

end Sys2Proof.Machine

/-! ## The laws of the link under the events of the link itself (R150 to R170) -/

namespace Sys2Proof.Machine

/-! ### A transmitter at rest: IDLE or MUTED with an empty queue -/

/-- Outside RUNNING the transmitter rests, MUTED exactly under a loaded listen-only (R158). -/
theorem LinkLaw.resting {s : State} (h : LinkLaw s) (hrunning : s.running = false) :
    s.link.tx = [] ∧ s.link.txState = if s.loaded = true ∧ s.port.listenOnly = true then .muted else .idle := by
  have hrests := h.notRunning hrunning
  refine ⟨h.silent hrests, ?_⟩
  split
  · next hlisten => exact h.muted.mpr hlisten
  · next hlisten => exact hrests.resolve_right fun hst => hlisten (h.muted.mp hst)

theorem LinkLaw.of_resting {t : State} (hreset : ResetLaw t) (hrx : t.link.rx.length ≤ Config.linkQueueSize)
    (htx : t.link.tx = [])
    (hst : t.link.txState = if t.loaded = true ∧ t.port.listenOnly = true then .muted else .idle)
    (hquiet : t.link.quietSince.isSome = true ↔ t.loaded = true ∧ t.link.lnkCd = false) : LinkLaw t := by
  have hrests : t.link.txState = .idle ∨ t.link.txState = .muted := by rw [hst]; split <;> simp
  have hnot : t.link.txState ≠ .sending := by rcases hrests with h | h <;> simp [h]
  exact
    { reset := hreset
      rxSize := hrx
      txSize := by simp [htx]
      classes := by simp [htx]
      oneHeard := by simp [htx]
      keyed := by simp [htx, hnot]
      silent := fun _ => htx
      waits := fun h => by rcases h with ⟨_, h⟩ | ⟨_, h⟩ <;> rcases hrests with hr | hr <;> simp [hr] at h
      muted := by rw [hst]; split <;> simp_all
      notRunning := fun _ => hrests
      quiet := by simpa [hnot] using hquiet }

/-- Nothing is loaded before and after, and no more than the level of LNK_CD changes on the link (R171). -/
theorem KeepsLinkLaws.unloads {s t : State} (hs : ResetLaw s → s.loaded = false) (ht : ResetLaw s → t.loaded = false)
    (hlink : t.link = { s.link with lnkCd := t.link.lnkCd }) : KeepsLinkLaws s t where
  link := fun h => by
    have hbefore := hs h.reset
    have hafter := ht h.reset
    obtain ⟨hempty, hidle⟩ := h.resting (by simp_all [State.loaded, State.running])
    have hquiet := h.quiet
    exact .of_resting (fun _ => hafter) (by rw [hlink]; exact h.rxSize) (by rw [hlink]; exact hempty)
      (by rw [hlink]; simpa [hafter, hbefore] using hidle) (by rw [hlink]; simpa [hafter, hbefore] using hquiet)
  backoff := fun h => h.of_link (fun hr _ => ht hr) (fun hl => by simp [ht h.reset] at hl) (.inl (by rw [hlink]))
    (by rw [hlink]) (by rw [hlink]; exact h.count) (by rw [hlink]; exact h.held)
  frames := fun h => h.of_frames (fun hi => .of_unloaded (ht hi.reset)) (by rw [hlink]; exact List.Subset.refl _)

/-! ### Waits that end (R160 to R162) -/

theorem LinkLaw.waits_of_frame {s : State} (h : LinkLaw s) (hframe : s.link.tx ≠ []) (hst : s.link.txState ≠ .sending) :
    s.link.Waits s.loaded where
  frame := hframe
  unkeyed := by rw [h.keyed, if_neg hst]
  quiet := by rw [h.quiet]; simp [hst]

/-- The transmitter waits for the channel, in DEFER or with a count in BACKOFF. -/
def TxState.Waiting (x : TxState) : Prop := (∃ held, x = .defer held) ∨ ∃ b, x = .backoff b

theorem TxState.Waiting.active {x : TxState} (h : x.Waiting) : x ≠ .idle ∧ x ≠ .muted ∧ x ≠ .sending := by
  rcases h with ⟨_, rfl⟩ | ⟨_, rfl⟩ <;> exact ⟨nofun, nofun, nofun⟩

theorem KeepsLinkLaws.proceeds {s : State} {held : Option Nat} {l : Link} (h : s.link.Proceeds held l)
    (hst : s.link.txState.Waiting) (hheld : BackoffLaw s → ∀ b, held = some b → 1 ≤ b ∧ b ≤ 63) :
    KeepsLinkLaws s (s.withLink l) where
  link := fun hs =>
    .proceeds h hs.reset (hs.active hst.active.1 hst.active.2.1) hs.queues
      (hs.waits_of_frame (hs.waits hst) hst.active.2.2)
  backoff := fun hs => .proceeds h hs ⟨rfl, rfl⟩ (hheld hs)
  frames := fun hs => hs.of_frames (.congr (s := s) rfl rfl rfl)
    (by rw [State.withLink_link, h.frames]; exact List.Subset.refl _)

/-- A count that has run out keys the head frame (R161). -/
theorem KeepsLinkLaws.key {s : State} (hst : s.link.txState.Waiting) : KeepsLinkLaws s (s.withLink s.link.key) := by
  by_cases htx : s.link.tx = []
  · have hsame : s.link.key = s.link := by rw [Link.key, htx]
    rw [hsame]
    exact .of_blocks (by simp)
  · obtain ⟨head, rest, htx⟩ := List.exists_cons_of_ne_nil htx
    exact .proceeds (.key none htx) hst fun _ _ h => nomatch h

/-- SPACING ends in IDLE with an empty queue, and else as any wait does (R162). -/
theorem KeepsLinkLaws.endSpacing {s : State} {deadline : Time} (hst : s.link.txState = .spacing deadline) (now : Time)
    (idleGap : Nat) : KeepsLinkLaws s (s.withLink (s.link.endSpacing now idleGap)) := by
  have hactive (h : LinkLaw s) := h.active (by simp [hst]) (by simp [hst])
  by_cases htx : s.link.tx = []
  · rw [Link.endSpacing_idle htx]
    refine ⟨fun h => ?_, fun h => h.of_link id id (.inl rfl) rfl nofun nofun,
      fun h => h.of_frames (.congr (s := s) rfl rfl rfl) (List.Subset.refl _)⟩
    exact .of_active h.reset (hactive h) ⟨h.rxSize, h.txSize, h.classes, h.oneHeard⟩ (by simp [htx]) (fun _ => htx)
      (fun hw => by rcases hw with ⟨_, hw⟩ | ⟨_, hw⟩ <;> cases hw) nofun (by simpa [hst] using h.quiet)
  · have hproceeds := Link.Proceeds.endSpacing htx now idleGap
    exact ⟨fun h => .proceeds hproceeds h.reset (hactive h) h.queues (h.waits_of_frame htx (by simp [hst])),
      fun h => .proceeds hproceeds h ⟨rfl, rfl⟩ nofun,
      fun h => h.of_frames (.congr (s := s) rfl rfl rfl)
        (by rw [State.withLink_link, hproceeds.frames]; exact List.Subset.refl _)⟩

/-- The link when the keyed frame has been sent and SPACING runs (R162). -/
def Link.spaced (now : Time) (spacing : Nat) (l : Link) : Link :=
  { l with
    tx := l.tx.filter fun x => !x.keyed
    lastSent := some { time := now, old := false }
    quietSince := if l.lnkCd then l.quietSince else some { time := now, old := false }
    txState := .spacing (after now spacing) }

theorem KeepsLinkLaws.spaced {s : State} (hst : s.link.txState = .sending) (now : Time) (spacing : Nat) :
    KeepsLinkLaws s (s.withLink (s.link.spaced now spacing)) where
  link := fun h => by
    have hactive := h.active (by simp [hst]) (by simp [hst])
    have hloaded : s.loaded = true := by simp_all [State.running, State.loaded]
    have hquiet : s.link.quietSince = none := by simpa [hst] using h.quiet
    refine .of_active h.reset hactive (h.queues.sublist h.rxSize List.filter_sublist) ?_ nofun
      (fun hw => by rcases hw with ⟨_, hw⟩ | ⟨_, hw⟩ <;> cases hw) nofun ?_
    · simp [Link.spaced]
    · cases hcarrier : s.link.lnkCd <;> simp [Link.spaced, hcarrier, hquiet, hloaded]
  backoff := fun h => h.of_link id id (.inl rfl) rfl nofun nofun
  frames := fun h => h.of_frames (.congr (s := s) rfl rfl rfl) (List.map_subset _ (List.filter_subset_self _))

theorem KeepsLinkLaws.sent {s : State} (hst : s.link.txState = .sending) (now : Time) (spacing idleGap : Nat) :
    KeepsLinkLaws s (s.withLink (s.link.sent now spacing idleGap)) := by
  have hspaced := KeepsLinkLaws.spaced hst now spacing
  rw [Link.sent_eq]
  dsimp only
  split
  · exact hspaced.trans (.endSpacing rfl now idleGap)
  · exact hspaced

/-! ### The carrier (R150, R158, R161) -/

/-- The transmitter at a rise of LNK_CD: a count of 1 or more is frozen into DEFER, one that has run out has keyed (R161). -/
def Link.frozen (l : Link) : Link :=
  match l.txState with
  | .backoff 0 => l.key
  | .backoff (b + 1) => { l with txState := .defer (some (b + 1)) }
  | _ => l

theorem Link.frozen_count {l : Link} {b : Nat} (h : l.txState = .backoff b) (hb : b ≠ 0) :
    l.frozen = { l with txState := .defer (some b) } := by
  obtain ⟨n, rfl⟩ := Nat.exists_eq_succ_of_ne_zero hb
  rw [Link.frozen, h]

theorem Link.frozen_zero {l : Link} (h : l.txState = .backoff 0) : l.frozen = l.key := by
  rw [Link.frozen, h]

theorem Link.frozen_other {l : Link} (h : ∀ b, l.txState ≠ .backoff b) : l.frozen = l := by
  unfold Link.frozen
  split
  · next hst => exact absurd hst (h _)
  · next hst => exact absurd hst (h _)
  · rfl

/-- What a rise of LNK_CD makes of the transmitter (R158, R161). -/
theorem Link.carrierRises_eq (l : Link) : l.carrierRises = { l.frozen with quietSince := none } := by
  by_cases hst : ∃ b, l.txState = .backoff b
  · obtain ⟨b, hst⟩ := hst
    cases b with
    | zero => rw [Link.frozen_zero hst, Link.carrierRises, hst]
    | succ b => rw [Link.frozen_count hst (Nat.succ_ne_zero b), Link.carrierRises, hst]
  · rw [Link.frozen_other fun b hb => hst ⟨b, hb⟩]
    unfold Link.carrierRises
    split
    · next hzero => exact absurd ⟨_, hzero⟩ hst
    · next hcount => exact absurd ⟨_, hcount⟩ hst
    · rfl

theorem Link.countOnset_eq (l : Link) :
    l.countOnset = { l with onsets := if l.windowDeadline = none then l.onsets else saturate l.onsets } := by
  unfold Link.countOnset
  by_cases hw : l.windowDeadline = none
  · rw [if_pos hw, if_neg (by simp [hw])]
  · rw [if_neg hw, if_pos (Option.isSome_iff_ne_none.mpr hw)]

theorem KeepsLinkLaws.countOnset (s : State) : KeepsLinkLaws s (s.withLink s.link.countOnset) := by
  rw [Link.countOnset_eq]
  exact ⟨fun h => { h with }, fun h => { h with }, fun h => { h with image := .congr (s := s) rfl rfl rfl h.image }⟩

theorem KeepsLinkLaws.frozen (s : State) : KeepsLinkLaws s (s.withLink s.link.frozen) := by
  by_cases hst : ∃ b, s.link.txState = .backoff b
  · obtain ⟨b, hst⟩ := hst
    by_cases hb : b = 0
    · rw [Link.frozen_zero (hb ▸ hst)]
      exact .key (.inr ⟨b, hst⟩)
    · rw [Link.frozen_count hst hb]
      exact .proceeds .defers (.inr ⟨b, hst⟩) fun h c hc =>
        Option.some.inj hc ▸ ⟨Nat.pos_of_ne_zero hb, h.count b hst⟩
  · rw [Link.frozen_other fun b hb => hst ⟨b, hb⟩]
    exact .of_blocks (by simp)

/-- LNK_CD high removes the quiet-since stamp in every state of the transmitter (R158). -/
theorem KeepsLinkLaws.carrierUp (s : State) (collection : Collection) :
    KeepsLinkLaws s (s.withLink { s.link with lnkCd := true, quietSince := none, collection := collection }) where
  link := fun h => { h with quiet := by simp }
  backoff := fun h => { h with }
  frames := fun h => { h with image := .congr (s := s) rfl rfl rfl h.image }

/-- What a fall of LNK_CD makes of the link (R150, R158). -/
theorem Link.carrierFalls_eq (now : Time) (loaded : Bool) (l : Link) :
    l.carrierFalls now loaded =
      { l with
        lnkCd := false, collection := .idle
        quietSince := if loaded = true ∧ l.txState ≠ .sending then some { time := now, old := false } else l.quietSince } := by
  unfold Link.carrierFalls
  dsimp only
  split
  · rfl
  · rfl

theorem KeepsLinkLaws.carrierFalls {s : State} (hcarrier : s.link.lnkCd = true) (now : Time) :
    KeepsLinkLaws s (s.withLink (s.link.carrierFalls now s.loaded)) := by
  rw [Link.carrierFalls_eq]
  refine ⟨fun h => { h with quiet := ?_ }, fun h => { h with },
    fun h => h.of_frames (.congr (s := s) rfl rfl rfl) (List.Subset.refl _)⟩
  have hnone : s.link.quietSince = none := by simpa [hcarrier] using h.quiet
  by_cases hquiet : s.loaded = true ∧ s.link.txState ≠ .sending
  · simp [hquiet]
  · simp [hquiet, hnone]

theorem KeepsLinkLaws.receive (f : LinkFrame) (s : State) : KeepsLinkLaws s (s.withLink (s.link.receive f)) := by
  unfold Link.receive
  split
  · exact .of_blocks (by simp)
  · next hroom =>
    have hroom : s.link.rx.length < Config.linkQueueSize := by simpa [Link.rxFull] using hroom
    exact ⟨fun h => { h with rxSize := by simpa using hroom }, fun h => { h with },
      fun h => h.of_frames (.congr (s := s) rfl rfl rfl) (List.Subset.refl _)⟩

theorem KeepsLinkLaws.judgeCollected (bytes : List Byte) (s : State) : KeepsLinkLaws s (s.judgeCollected bytes) := by
  unfold State.judgeCollected
  split
  · exact .refl s
  split
  · exact .of_blocks (by simp)
  · exact .of_blocks (by simp)
  · next f _ => exact (KeepsLinkLaws.receive f s).then (by simp)

/-! ### Time, marks and the load monitor (R161, R165, R166, R181, R183) -/

theorem KeepsLinkLaws.countDown (s : State) : KeepsLinkLaws s (s.withLink s.link.countDown) := by
  unfold Link.countDown
  split
  · next b hst =>
    have hwaiting : s.link.txState.Waiting := .inr ⟨b, hst⟩
    obtain ⟨hidle, hmuted, hsending⟩ := hwaiting.active
    refine ⟨fun h => ?_, fun h => h.of_link id id (.inl rfl) rfl (fun c hc => ?_) nofun,
      fun h => h.of_frames (.congr (s := s) rfl rfl rfl) (List.Subset.refl _)⟩
    · have hwaits := h.waits_of_frame (h.waits hwaiting) hsending
      exact .of_active h.reset (h.active hidle hmuted) ⟨h.rxSize, h.txSize, h.classes, h.oneHeard⟩
        (by simpa using hwaits.unkeyed) nofun (fun _ => hwaits.frame) nofun (by simpa using hwaits.quiet)
    · have hc : b - 1 = c := TxState.backoff.inj hc
      have hb := h.count b hst
      omega
  · exact .of_blocks (by simp)

theorem KeepsLinkLaws.oldMark {stamp : StampName} {s t : State} (h : execOldMark stamp s = .next t) :
    KeepsLinkLaws s t := by
  rcases serve_eq_next h with ⟨-, rfl⟩ | ⟨-, rfl⟩
  · exact .refl _
  cases stamp with
  | lastSent =>
    exact ⟨fun h => { h with }, fun h => { h with }, fun h => { h with image := .congr (s := s) rfl rfl rfl h.image }⟩
  | quietSince =>
    exact ⟨fun h => { h with quiet := by simpa using h.quiet }, fun h => { h with },
      fun h => { h with image := .congr (s := s) rfl rfl rfl h.image }⟩

/-- W at a window end is again one of its five values (R166). -/
theorem nextWindow_lawful (threshold onsets : Nat) {w : Nat} (h : w = 4 ∨ w = 8 ∨ w = 16 ∨ w = 32 ∨ w = 64) :
    let w' := nextWindow threshold onsets w
    w' = 4 ∨ w' = 8 ∨ w' = 16 ∨ w' = 32 ∨ w' = 64 := by
  unfold nextWindow
  dsimp only
  split_ifs <;> omega

/-- The link at a window end (R166). -/
def Link.windowEnded (now : Time) (threshold : Nat) (l : Link) : Link :=
  { l with
    window := l.window.map (nextWindow threshold l.onsets.toNat), onsets := 0
    windowDeadline := some (after now Config.windowTicks) }

theorem KeepsLinkLaws.windowEnded (s : State) (now : Time) (threshold : Nat) :
    KeepsLinkLaws s (s.withLink (s.link.windowEnded now threshold)) where
  link := fun h => { h with }
  backoff := fun h =>
    { h with
      window := fun w hw => by
        obtain ⟨v, hv, rfl⟩ := Option.map_eq_some_iff.mp hw
        exact nextWindow_lawful _ _ (h.window v hv)
      seeded := fun hl => ⟨(h.seeded hl).1, by simpa [Link.windowEnded] using (h.seeded hl).2⟩ }
  frames := fun h => { h with image := .congr (s := s) rfl rfl rfl h.image }

/-! ### Load, listen-only and flush (R163 to R170) -/

/-- W as an image gives it: its parameter rounded down to a power of two (R177). -/
theorem clampParam_window (v : Nat) :
    let w := clampParam .initialWindow v
    w = 4 ∨ w = 8 ∨ w = 16 ∨ w = 32 ∨ w = 64 := by
  unfold clampParam
  dsimp only
  rw [if_pos rfl, roundWindow]
  split_ifs <;> simp

/-- The seed of the backoff register is not 0, for the site number is not (R163, R175). -/
theorem seed_ne_zero {b : Byte} (h : b ≠ 0) : (b ++ b : BitVec 16) ≠ 0 := fun hzero =>
  h (by
    have hlow := congrArg (BitVec.extractLsb' 0 8) hzero
    rwa [BitVec.extractLsb'_append_eq_right] at hlow)

theorem KeepsLinkLaws.succeedLoad {s : State} {image : List Byte} (hhigh : s.resetHeld = false)
    (hpass : imagePasses image = true) (hs : s.loaded = false) : KeepsLinkLaws s (s.succeedLoad image) where
  link := fun h => by
    obtain ⟨hempty, -⟩ := h.resting (by simp_all [State.loaded, State.running])
    have hnone : s.link.quietSince = none := by simpa [hs] using h.quiet
    refine .of_resting (fun hr => absurd hr (by simp [State.succeedLoad, hhigh])) ?_ ?_ ?_ ?_
    · simpa [State.succeedLoad, Link.loadDone, Link.becomeQuiet_eq] using h.rxSize
    · simpa [State.succeedLoad, Link.loadDone, Link.becomeQuiet_eq] using hempty
    · simp [State.succeedLoad, Link.loadDone, State.loaded]
    · cases hcarrier : s.link.lnkCd <;>
        simp [State.succeedLoad, Link.loadDone, Link.becomeQuiet_eq, State.loaded, hcarrier, hnone]
  backoff := fun _ =>
    { reset := fun hr => absurd hr (by simp [State.succeedLoad, hhigh])
      window := fun w hw => by
        obtain rfl := Option.some.inj hw
        exact clampParam_window _
      seeded := fun _ => ⟨seed_ne_zero (site_of_imagePasses hpass).1, rfl⟩
      count := fun b hb => by
        dsimp only [State.succeedLoad, State.withStrays_link, State.withLink_link, Link.loadDone] at hb
        split at hb <;> cases hb
      held := fun b hb => by
        dsimp only [State.succeedLoad, State.withStrays_link, State.withLink_link, Link.loadDone] at hb
        split at hb <;> cases hb }
  frames := fun h => h.of_frames (fun _ => .of_passed hhigh hpass rfl)
    (by simp [State.succeedLoad, Link.loadDone, Link.becomeQuiet_eq])

/-- A transmitter that is left at rest with an empty queue keeps the laws of the rest (R167, R168, R170). -/
theorem KeepsLinkLaws.of_emptied {s t : State} (hlink : LinkLaw s → LinkLaw t) (hreset : t.resetHeld = s.resetHeld)
    (hloaded : t.loaded = s.loaded) (himage : t.loader.image = s.loader.image)
    (hbackoff : t.link.register = s.link.register ∧ t.link.window = s.link.window)
    (hst : t.link.txState = .idle ∨ t.link.txState = .muted) (htx : t.link.tx ⊆ s.link.tx) : KeepsLinkLaws s t where
  link := hlink
  backoff := fun h => h.of_link (fun hr => by rwa [ResetLaw, hreset, hloaded]) (fun hl => hloaded ▸ hl)
    (.inl hbackoff.1) hbackoff.2 (fun b hb => by rcases hst with hst | hst <;> simp [hst] at hb)
    (fun b hb => by rcases hst with hst | hst <;> simp [hst] at hb)
  frames := fun h => h.of_frames (.congr hreset hloaded himage) (List.map_subset _ htx)

end Sys2Proof.Machine

/-! ## The laws of the link under every command -/

namespace Sys2Proof.Machine

/-! ### Shapes of a meaning -/

theorem KeepsLinkLaws.of_serve {f : State → State} {s t : State} (h : serve f s = .next t)
    (hf : s.resetHeld = false → KeepsLinkLaws s (f s)) : KeepsLinkLaws s t := by
  rcases serve_eq_next h with ⟨-, rfl⟩ | ⟨hhigh, rfl⟩
  · exact .refl _
  · exact hf hhigh

theorem KeepsLinkLaws.of_serveIf {b : Bool} {f : State → State} {s t : State} (h : serveIf b f s = .next t)
    (hf : s.resetHeld = false → KeepsLinkLaws s (f s)) : KeepsLinkLaws s t := by
  obtain ⟨rfl, -⟩ := serveIf_eq_next h
  exact .of_serve h hf

theorem KeepsLinkLaws.onlyIf {p : Prop} [Decidable p] {s t : State} (h : p → KeepsLinkLaws s t) :
    KeepsLinkLaws s (if p then t else s) := by
  split
  · next hp => exact h hp
  · exact .refl s

theorem KeepsLinkLaws.whenDue {i : Fin 64} {due : RosterEntry → Bool} {f : RosterEntry → State → State} {s t : State}
    (h : serve (fun s => s.whenDue i due f) s = .next t) (hf : ∀ e, KeepsLinkLaws s (f e s)) : KeepsLinkLaws s t := by
  refine .of_serve h fun _ => ?_
  unfold State.whenDue
  split
  · exact .onlyIf fun _ => hf _
  · exact .refl s

theorem KeepsLinkLaws.portCommand (c : PortCommand) (part : FramePart) (s : State)
    (heff : ∀ (shown : List Byte) (s : State), KeepsLinkLaws s (c.effect shown s)) :
    KeepsLinkLaws s (s.portCommand c part) := by
  refine State.portCommand_induct (P := KeepsLinkLaws s) c part ?_ ?_ ?_ ?_ s (.refl s)
  · exact fun t f h => h.then (by simp)
  · exact fun t m h => h.then (by simp)
  · exact fun t h => h.then (by simp)
  · exact fun shown t h => h.trans (heff shown t)

/-! ### Hard reset and the load (R171 to R180) -/

theorem KeepsLinkLaws.hardReset {s t : State} (h : execHardReset s = .next t) : KeepsLinkLaws s t := by
  cases h
  have hreset := KeepsLinkLaws.unloads (s := State.reset)
    (t := { State.reset with
      link := { State.reset.link with lnkCd := s.link.lnkCd }, freeIndex := s.freeIndex, pending := s.pending })
    (fun _ => rfl) (fun _ => rfl) rfl
  exact ⟨fun _ => hreset.link reset_linkLaw, fun _ => hreset.backoff reset_backoffLaw,
    fun _ => hreset.frames ⟨reset_imageLaw, fun _ h => nomatch h⟩⟩

theorem KeepsLinkLaws.resetRelease {s t : State} (h : execResetRelease s = .next t) : KeepsLinkLaws s t := by
  cases h
  exact .onlyIf fun hheld => .unloads (fun hreset => hreset hheld) (fun _ => rfl) rfl

/-- A load that fails was begun in a part that nothing is loaded in. -/
theorem KeepsLinkLaws.failLoad {s : State} (hs : s.loaded = false) (bus : List BusOp) :
    KeepsLinkLaws s (s.failLoad bus) :=
  .unloads (fun _ => hs) (fun _ => rfl) rfl

theorem KeepsLinkLaws.readComplete {pulses : Nat} {image : List Byte} {s t : State}
    (h : execReadComplete pulses image s = .next t) : KeepsLinkLaws s t := by
  refine .of_serveIf h fun hhigh => .onlyIf fun hloading => ?_
  have hs := State.loading_unloaded hloading
  have hread : KeepsLinkLaws s (s.withLoader { s.loader with buffer := image, bus := readSequence pulses image }) :=
    .unloads (fun _ => hs) (fun _ => hs) rfl
  split
  · next hpass => exact hread.trans (.succeedLoad hhigh hpass hs)
  · exact .unloads (fun _ => hs) (fun _ => rfl) rfl

theorem KeepsLinkLaws.loadDeadline {progress : BusProgress} {clockHeld : Bool} {s t : State}
    (h : execLoadDeadline progress clockHeld s = .next t) : KeepsLinkLaws s t := by
  refine .of_serveIf h fun _ => .onlyIf fun hdue => .unloads (fun _ => ?_) (fun _ => rfl) rfl
  simp_all [State.loaded]

/-! ### Events of the link -/

theorem KeepsLinkLaws.tick {s t : State} (h : execTick s = .next t) : KeepsLinkLaws s t :=
  .of_serve h fun _ => .trans (.of_blocks (t := s.withNow (s.now + 1)) (by simp)) (.countDown _)

theorem KeepsLinkLaws.idleGapDeadline {s t : State} (h : execIdleGapDeadline s = .next t) : KeepsLinkLaws s t := by
  refine .of_serve h fun _ => ?_
  split
  · next held m hst _ =>
    exact .onlyIf fun _ => .proceeds (.idleGapEnd held s.link) (.inl ⟨held, hst⟩) fun hs b hb =>
      hs.held b (by rw [hst, hb])
  · exact .refl s

theorem KeepsLinkLaws.spacingEnd {s t : State} (h : execSpacingEnd s = .next t) : KeepsLinkLaws s t := by
  refine .of_serve h fun _ => ?_
  split
  · next hst => exact .onlyIf fun _ => .endSpacing hst _ _
  · exact .refl s

theorem KeepsLinkLaws.carrierOnset {s t : State} (h : execCarrierOnset s = .next t) : KeepsLinkLaws s t := by
  cases h
  split
  · exact .refl s
  split
  · next hheld => exact .unloads (fun hr => hr hheld) (fun hr => hr hheld) rfl
  · rw [Link.carrierRises_eq]
    exact .trans (.trans (.countOnset s) (.frozen _)) (.carrierUp _ _)

theorem KeepsLinkLaws.carrierFall {bytes : List Byte} {s t : State} (h : execCarrierFall bytes s = .next t) :
    KeepsLinkLaws s t := by
  cases h
  split
  · exact .refl s
  next hcarrier =>
  have hfallen := KeepsLinkLaws.carrierFalls (s := s) (by simpa using hcarrier) s.now
  split
  · next hheld => exact .unloads (fun hr => hr hheld) (fun hr => hr hheld) rfl
  dsimp only
  split
  · exact hfallen.trans (.judgeCollected bytes _)
  · exact hfallen

theorem KeepsLinkLaws.dispatch {s t : State} (h : execDispatch s = .next t) : KeepsLinkLaws s t := by
  refine .of_serve h fun _ => ?_
  split
  · next hrx => exact .onlyIf fun _ => .dispatchFrame hrx
  · exact .refl s

/-! ### Other events that are more than one change under one condition -/

theorem KeepsLinkLaws.reportFrameStart {s t : State} (h : execReportFrameStart s = .next t) : KeepsLinkLaws s t :=
  .of_serve h fun _ => .of_blocks (by simp)

theorem KeepsLinkLaws.takenStrobe {s t : State} (h : execTakenStrobe s = .next t) : KeepsLinkLaws s t :=
  .of_serve h fun _ => .of_blocks (by simp)

theorem KeepsLinkLaws.reportFrame {frame : List Byte} {s t : State} (h : execReportFrame frame s = .next t) :
    KeepsLinkLaws s t := by
  have hended : KeepsLinkLaws s (s.withIntake { s.intake with collecting := false }) := .of_blocks (by simp)
  refine .of_serveIf h fun _ => .onlyIf fun _ => ?_
  split
  · exact hended.trans (.takeFrame frame _)
  · exact hended

theorem KeepsLinkLaws.answerDeadline {p : Fin 4} {s t : State} (h : execAnswerDeadline p s = .next t) :
    KeepsLinkLaws s t := by
  refine .of_serve h fun _ => ?_
  split
  · refine .onlyIf fun _ => ?_
    split
    · exact .resendAsk p _ s
    · exact .revert_arbiter _ true .asksTimedOut s
  · exact .refl s

theorem KeepsLinkLaws.leaveDeadline {p : Fin 4} {s t : State} (h : execLeaveDeadline p s = .next t) :
    KeepsLinkLaws s t := by
  refine .of_serve h fun _ => ?_
  split
  · exact .onlyIf fun _ => .leaveEnds _ s
  · exact .refl s

theorem KeepsLinkLaws.hearingExpiry {j : Fin 128} {s t : State} (h : execHearingExpiry j s = .next t) :
    KeepsLinkLaws s t := by
  refine .of_serve h fun _ => ?_
  split
  · exact .onlyIf fun _ => .of_blocks (by simp)
  · exact .refl s

theorem KeepsLinkLaws.fetchComplete {s t : State} (h : execFetchComplete s = .next t) : KeepsLinkLaws s t := by
  refine .of_serve h fun _ => ?_
  split
  · exact .of_blocks (by simp)
  · exact .refl s

/-! ### The effects of the maintenance commands -/

theorem KeepsLinkLaws.dropCommand (s : State) : KeepsLinkLaws s s.dropCommand := .of_blocks (by simp)

theorem KeepsLinkLaws.selectEffect (table index : Byte) (shown : List Byte) (s : State) :
    KeepsLinkLaws s ((selectCommand table index).effect shown s) := by
  simp only [selectCommand]
  split
  · exact .of_blocks (by simp)
  · exact .dropCommand s

theorem KeepsLinkLaws.countersEffect (clear : Byte) (shown : List Byte) (s : State) :
    KeepsLinkLaws s ((countersCommand clear).effect shown s) := by
  simp only [countersCommand]
  split
  · exact .refl s
  · exact .of_blocks (by simp)

theorem KeepsLinkLaws.holdEffect (mode : Byte) (shown : List Byte) (s : State) :
    KeepsLinkLaws s ((holdCommand mode).effect shown s) := by
  simp only [holdCommand, State.setHoldMode]
  split
  · split
    · exact .refl s
    · exact .of_blocks (by simp)
  · exact .dropCommand s

theorem KeepsLinkLaws.pinRadio (r : Radio) (s : State) : KeepsLinkLaws s (s.pinRadio r) := by
  unfold State.pinRadio
  split
  · exact .refl s
  split
  · exact .dropCommand s
  · exact .of_blocks (by simp)

theorem KeepsLinkLaws.unpinRadio (r : Radio) (s : State) : KeepsLinkLaws s (s.unpinRadio r) :=
  .onlyIf fun _ => .of_blocks (by simp)

/-- Listen-only entered mutes the transmitter; left, it finds it MUTED and with nothing to send (R167, R168). -/
theorem KeepsLinkLaws.setListenOnly (on : Bool) {s : State} (hrunning : s.running = true) :
    KeepsLinkLaws s (s.setListenOnly on) := by
  have hloaded : s.loaded = true := by simp_all [State.running, State.loaded]
  unfold State.setListenOnly
  split
  · exact .refl s
  next hchange =>
  refine .trans (t := (s.withPort { s.port with listenOnly := on }).withLink
    (if on then s.link.mute s.now else s.link.unmute)) ?_ (.of_blocks (by simp))
  cases on with
  | true =>
    simp only [if_true, Link.mute_eq]
    refine .of_emptied (fun h => .of_resting h.reset h.rxSize rfl ?_ ?_) rfl rfl rfl ⟨rfl, rfl⟩ (.inr rfl)
      (List.nil_subset _)
    · show TxState.muted = if s.loaded = true ∧ true = true then _ else _
      simp [hloaded]
    · show _ ↔ s.loaded = true ∧ s.link.lnkCd = false
      have hquiet := h.quiet
      cases hcarrier : s.link.lnkCd <;> simp_all
  | false =>
    have hlisten : s.port.listenOnly = true := by simpa using hchange
    have hmuted (h : LinkLaw s) : s.link.txState = .muted := h.muted.mpr ⟨hloaded, hlisten⟩
    refine .of_emptied (fun h => .of_resting h.reset h.rxSize (h.silent (.inr (hmuted h))) ?_ ?_) rfl rfl rfl ⟨rfl, rfl⟩
      (.inl rfl) (List.Subset.refl _)
    · show TxState.idle = if s.loaded = true ∧ false = true then _ else _
      simp
    · show s.link.quietSince.isSome = true ↔ s.loaded = true ∧ s.link.lnkCd = false
      rw [h.quiet]; simp [hmuted h]

theorem KeepsLinkLaws.listenEffect (setting : Byte) (shown : List Byte) (s : State) :
    KeepsLinkLaws s ((listenCommand setting).effect shown s) := by
  simp only [listenCommand]
  split
  · split
    · next hrunning => exact .setListenOnly _ hrunning
    · exact .dropCommand s
  · exact .dropCommand s

/-- A flush empties both queues and leaves the transmitter at rest (R170). -/
theorem KeepsLinkLaws.beginFlush {s : State} (hrunning : s.running = true) : KeepsLinkLaws s s.beginFlush := by
  have hloaded : s.loaded = true := by simp_all [State.running, State.loaded]
  have hlink : s.beginFlush.link = s.link.flushed s.now s.port.listenOnly := rfl
  have hstill : s.beginFlush.loaded = true := rfl
  have hlisten : s.beginFlush.port.listenOnly = s.port.listenOnly := rfl
  rw [Link.flushed_eq] at hlink
  refine .of_emptied (fun h => .of_resting (fun hr => ?_) ?_ ?_ ?_ ?_) rfl (hstill.trans hloaded.symm) rfl ?_ ?_ ?_
  · exact absurd (h.reset hr) (by simp [hloaded])
  · rw [hlink]; exact Nat.zero_le _
  · rw [hlink]
  · rw [hlink, hstill, hlisten]; simp
  · rw [hlink, hstill]
    have hquiet := h.quiet
    by_cases hsending : s.link.txState = .sending <;> cases hcarrier : s.link.lnkCd <;> simp_all
  · rw [hlink]; exact ⟨rfl, rfl⟩
  · rw [hlink]; dsimp only; split <;> simp
  · rw [hlink]; exact List.nil_subset _

theorem KeepsLinkLaws.flushEffect (shown : List Byte) (s : State) : KeepsLinkLaws s (flushCommand.effect shown s) := by
  simp only [flushCommand]
  split
  · next hrunning => exact .beginFlush hrunning
  · exact .dropCommand s

theorem KeepsLinkLaws.flushComplete {s t : State} (h : execFlushComplete s = .next t) : KeepsLinkLaws s t := by
  refine .of_serve h fun _ => .onlyIf fun hflushing => ?_
  have hloaded : s.loaded = true := by simp_all [State.loaded]
  have hidle : s.running = false := by simp_all [State.running]
  refine ⟨fun h => ?_, fun h => h.of_link (fun hr hheld => absurd (hr hheld) (by simp [hloaded])) (fun _ => hloaded)
    (.inl rfl) rfl h.count h.held, fun h => h.of_frames (.congr rfl hloaded.symm rfl) (List.Subset.refl _)⟩
  obtain ⟨hempty, hrests⟩ := h.resting hidle
  rw [hloaded] at hrests
  have hquiet : s.link.quietSince.isSome = true ↔ s.loaded = true ∧ s.link.lnkCd = false := by
    rw [h.quiet, hrests]; split <;> simp
  rw [hloaded] at hquiet
  exact .of_resting (fun hr => absurd (h.reset hr) (by simp [hloaded])) h.rxSize hempty hrests hquiet

theorem KeepsLinkLaws.reloadEffect (shown : List Byte) (s : State) :
    KeepsLinkLaws s (reloadCommand.effect shown s) := by
  simp only [reloadCommand]
  split
  · next hfault => exact .unloads (fun _ => by simp_all [State.loaded]) (fun _ => rfl) rfl
  · exact .dropCommand s

/-! ### Every command -/

theorem exec_keepsLinkLaws {c : Instr} {s t : State} (h : exec c s = .next t) : KeepsLinkLaws s t := by
  cases c with
  | hardReset => exact .hardReset h
  | resetRelease => exact .resetRelease h
  | readComplete pulses image => exact .readComplete h
  | missingAcknowledge pulses point =>
    exact .of_serveIf h fun _ => .onlyIf fun hl => .failLoad (State.loading_unloaded hl) _
  | stuckDataLine => exact .of_serve h fun _ => .onlyIf fun hl => .failLoad (State.loading_unloaded hl) _
  | loadDeadline progress clockHeld => exact .loadDeadline h
  | tick => exact .tick h
  | oldMark stamp => exact .oldMark h
  | reportFrameStart => exact .reportFrameStart h
  | reportFrame frame => exact .reportFrame h
  | lostDeadline i => exact .whenDue h fun _ => .of_blocks (by simp)
  | callActiveDeadline i => exact .whenDue h fun _ => .of_blocks (by simp)
  | emergencyClear i => exact .whenDue h fun _ => .of_blocks (by simp)
  | guardPeriodEnd i => exact .whenDue h fun _ => .of_blocks (by simp)
  | reservationDeadline i => exact .whenDue h fun _ => .of_blocks (by simp)
  | dwellExpiry i => exact .whenDue h fun e => .dwellExpires i e s
  | exclusionDeadline i => exact .whenDue h fun _ => .of_blocks (by simp)
  | answerDeadline p => exact .answerDeadline h
  | leaveDeadline p => exact .leaveDeadline h
  | strayAgeDeadline j => exact .of_serve h fun _ => .onlyIf fun _ => .of_blocks (by simp)
  | hearingPeriodExpiry =>
    exact .of_serve h fun _ => .onlyIf fun _ => .trans (.of_blocks (by simp)) (.composeNotice _)
  | silenceDeadline n => exact .of_serve h fun _ => .onlyIf fun _ => .of_blocks (by simp)
  | hearingExpiry j => exact .hearingExpiry h
  | idleGapDeadline => exact .idleGapDeadline h
  | backoffEnd => exact .of_serve h fun _ => .onlyIf fun hst => .key (.inr ⟨0, hst⟩)
  | spacingEnd => exact .spacingEnd h
  | windowEnd => exact .of_serve h fun _ => .onlyIf fun _ => .windowEnded s _ _
  | carrierOnset => exact .carrierOnset h
  | carrierFall bytes => exact .carrierFall h
  | dispatch => exact .dispatch h
  | sentReport => exact .of_serve h fun _ => .onlyIf fun hst => .sent hst _ _ _
  | takenStrobe => exact .takenStrobe h
  | status part => exact .of_serve h fun _ => .portCommand _ part s fun _ u => .refl u
  | peekAttention part => exact .of_serve h fun _ => .portCommand _ part s fun _ u => .refl u
  | takeAttention part => exact .of_serve h fun _ => .portCommand _ part s fun _ _ => .of_blocks ⟨rfl, rfl, rfl, rfl⟩
  | selectTable table index part => exact .of_serve h fun _ => .portCommand _ part s (.selectEffect table index)
  | readEntry part => exact .of_serve h fun _ => .portCommand _ part s fun _ _ => .of_blocks ⟨rfl, rfl, rfl, rfl⟩
  | fetchComplete => exact .fetchComplete h
  | readCounters clear part => exact .of_serve h fun _ => .portCommand _ part s (.countersEffect clear)
  | setHold mode part => exact .of_serve h fun _ => .portCommand _ part s (.holdEffect mode)
  | pin radio part => exact .of_serve h fun _ => .portCommand _ part s fun _ u => .pinRadio radio u
  | unpin radio part => exact .of_serve h fun _ => .portCommand _ part s fun _ u => .unpinRadio radio u
  | listenOnly setting part => exact .of_serve h fun _ => .portCommand _ part s (.listenEffect setting)
  | flush part => exact .of_serve h fun _ => .portCommand _ part s .flushEffect
  | flushComplete => exact .flushComplete h
  | reload part => exact .of_serve h fun _ => .portCommand _ part s .reloadEffect
  | unknownCommand code part => exact .of_serveIf h fun _ => .portCommand _ part s fun _ u => .refl u

theorem step_keepsLinkLaws {s t : State} (h : step s = .next t) : KeepsLinkLaws s t := by
  unfold step at h
  split at h
  · cases h; exact .refl _
  · exact .trans (.of_blocks (by simp)) (exec_keepsLinkLaws h)

/-- Settles O58: the link changes by offers, by what its own events make of a frame that waits, and by what brings the
transmitter to rest, and each of these keeps the laws. -/
theorem everyStepKeepsTheLinkLaws : Obligations.EveryStepKeepsTheLinkLaws := by
  intro s t h
  obtain ⟨hlink, hbackoff, hframes⟩ := step_keepsLinkLaws h
  exact ⟨hlink, hbackoff, hframes⟩

end Sys2Proof.Machine

/-! ## Site time (R161, R181, R183) -/

namespace Sys2Proof.Machine

/-! ### What leaves site time as it is -/

theorem now_of_serve {f : State → State} {s t : State} (h : serve f s = .next t) (hf : (f s).now = s.now) :
    t.now = s.now := by
  rcases serve_eq_next h with ⟨-, rfl⟩ | ⟨-, rfl⟩
  · rfl
  · exact hf

theorem now_of_serveIf {b : Bool} {f : State → State} {s t : State} (h : serveIf b f s = .next t)
    (hf : (f s).now = s.now) : t.now = s.now := by
  obtain ⟨rfl, -⟩ := serveIf_eq_next h
  exact now_of_serve h hf

theorem now_onlyIf {p : Prop} [Decidable p] {s t : State} (h : t.now = s.now) : (if p then t else s).now = s.now := by
  split
  · exact h
  · rfl

theorem State.whenDue_now {i : Fin 64} {due : RosterEntry → Bool} {f : RosterEntry → State → State} {s : State}
    (hf : ∀ e, (f e s).now = s.now) : (s.whenDue i due f).now = s.now := by
  unfold State.whenDue
  split
  · exact now_onlyIf (hf _)
  · rfl

theorem now_of_whenDue {i : Fin 64} {due : RosterEntry → Bool} {f : RosterEntry → State → State} {s t : State}
    (h : serve (fun s => s.whenDue i due f) s = .next t) (hf : ∀ e, (f e s).now = s.now) : t.now = s.now :=
  now_of_serve h (State.whenDue_now hf)

theorem now_of_portCommand {c : PortCommand} {part : FramePart} {s t : State}
    (h : serve (State.portCommand c part) s = .next t)
    (heff : ∀ (shown : List Byte) (s : State), (c.effect shown s).now = s.now) : t.now = s.now :=
  now_of_serve h (State.portCommand_keeps State.now c part (fun _ _ _ _ => rfl) heff s)

/-! ### The commands that choose between several changes -/

theorem oldMark_now {stamp : StampName} {s t : State} (h : execOldMark stamp s = .next t) : t.now = s.now :=
  now_of_serve h (by cases stamp <;> rfl)

theorem readComplete_now {pulses : Nat} {image : List Byte} {s t : State}
    (h : execReadComplete pulses image s = .next t) : t.now = s.now :=
  now_of_serveIf h (now_onlyIf (by dsimp only; split <;> rfl))

theorem reportFrame_now {frame : List Byte} {s t : State} (h : execReportFrame frame s = .next t) : t.now = s.now :=
  now_of_serveIf h (now_onlyIf (by dsimp only; split <;> simp))

theorem answerDeadline_now {p : Fin 4} {s t : State} (h : execAnswerDeadline p s = .next t) : t.now = s.now := by
  refine now_of_serve h ?_
  split
  · refine now_onlyIf ?_
    split <;> simp
  · rfl

theorem leaveDeadline_now {p : Fin 4} {s t : State} (h : execLeaveDeadline p s = .next t) : t.now = s.now := by
  refine now_of_serve h ?_
  split
  · exact now_onlyIf (by simp)
  · rfl

theorem hearingExpiry_now {j : Fin 128} {s t : State} (h : execHearingExpiry j s = .next t) : t.now = s.now := by
  refine now_of_serve h ?_
  split
  · exact now_onlyIf rfl
  · rfl

theorem idleGapDeadline_now {s t : State} (h : execIdleGapDeadline s = .next t) : t.now = s.now := by
  refine now_of_serve h ?_
  split
  · exact now_onlyIf rfl
  · rfl

theorem spacingEnd_now {s t : State} (h : execSpacingEnd s = .next t) : t.now = s.now := by
  refine now_of_serve h ?_
  split
  · exact now_onlyIf rfl
  · rfl

theorem carrierOnset_now {s t : State} (h : execCarrierOnset s = .next t) : t.now = s.now := by
  cases h
  split
  · rfl
  split <;> rfl

theorem carrierFall_now {bytes : List Byte} {s t : State} (h : execCarrierFall bytes s = .next t) : t.now = s.now := by
  cases h
  split
  · rfl
  split
  · rfl
  dsimp only
  split
  · exact (State.judgeCollected_now ..)
  · rfl

theorem dispatch_now {s t : State} (h : execDispatch s = .next t) : t.now = s.now := by
  refine now_of_serve h ?_
  split
  · exact now_onlyIf (by simp)
  · rfl

theorem fetchComplete_now {s t : State} (h : execFetchComplete s = .next t) : t.now = s.now := by
  refine now_of_serve h ?_
  split <;> rfl

/-! ### The effects of the maintenance commands -/

theorem selectEffect_now (table index : Byte) (shown : List Byte) (s : State) :
    ((selectCommand table index).effect shown s).now = s.now := by
  simp only [selectCommand]
  split <;> rfl

theorem countersEffect_now (clear : Byte) (shown : List Byte) (s : State) :
    ((countersCommand clear).effect shown s).now = s.now := by
  simp only [countersCommand]
  split <;> rfl

theorem holdEffect_now (mode : Byte) (shown : List Byte) (s : State) :
    ((holdCommand mode).effect shown s).now = s.now := by
  simp only [holdCommand]
  split
  · exact State.setHoldMode_now _ s
  · rfl

theorem listenEffect_now (setting : Byte) (shown : List Byte) (s : State) :
    ((listenCommand setting).effect shown s).now = s.now := by
  simp only [listenCommand]
  split
  · split
    · exact State.setListenOnly_now _ s
    · rfl
  · rfl

theorem flushEffect_now (shown : List Byte) (s : State) : (flushCommand.effect shown s).now = s.now := by
  simp only [flushCommand]
  split <;> rfl

theorem reloadEffect_now (shown : List Byte) (s : State) : (reloadCommand.effect shown s).now = s.now := by
  simp only [reloadCommand]
  split <;> rfl

/-! ### Every command -/

/-- Only HARD_RESET and TICK change site time (R181). -/
theorem exec_now {c : Instr} {s t : State} (h : exec c s = .next t) (hreset : c ≠ .hardReset) (htick : c ≠ .tick) :
    t.now = s.now := by
  cases c with
  | hardReset => exact absurd rfl hreset
  | resetRelease => cases h; exact now_onlyIf rfl
  | readComplete pulses image => exact readComplete_now h
  | missingAcknowledge pulses point => exact now_of_serveIf h (now_onlyIf rfl)
  | stuckDataLine => exact now_of_serve h (now_onlyIf rfl)
  | loadDeadline progress clockHeld => exact now_of_serveIf h (now_onlyIf rfl)
  | tick => exact absurd rfl htick
  | oldMark stamp => exact oldMark_now h
  | reportFrameStart => exact now_of_serve (f := fun s => s.withIntake { s.intake with collecting := true }) h rfl
  | reportFrame frame => exact reportFrame_now h
  | lostDeadline i => exact now_of_whenDue h fun _ => by simp
  | callActiveDeadline i => exact now_of_whenDue h fun _ => rfl
  | emergencyClear i => exact now_of_whenDue h fun _ => rfl
  | guardPeriodEnd i => exact now_of_whenDue h fun _ => rfl
  | reservationDeadline i => exact now_of_whenDue h fun _ => by simp
  | dwellExpiry i => exact now_of_whenDue h fun _ => by simp
  | exclusionDeadline i => exact now_of_whenDue h fun _ => rfl
  | answerDeadline p => exact answerDeadline_now h
  | leaveDeadline p => exact leaveDeadline_now h
  | strayAgeDeadline j => exact now_of_serve h (now_onlyIf rfl)
  | hearingPeriodExpiry => exact now_of_serve h (now_onlyIf (by simp))
  | silenceDeadline n => exact now_of_serve h (now_onlyIf rfl)
  | hearingExpiry j => exact hearingExpiry_now h
  | idleGapDeadline => exact idleGapDeadline_now h
  | backoffEnd => exact now_of_serve h (now_onlyIf rfl)
  | spacingEnd => exact spacingEnd_now h
  | windowEnd => exact now_of_serve h (now_onlyIf rfl)
  | carrierOnset => exact carrierOnset_now h
  | carrierFall bytes => exact carrierFall_now h
  | dispatch => exact dispatch_now h
  | sentReport => exact now_of_serve h (now_onlyIf rfl)
  | takenStrobe => exact now_of_serve (f := fun s => s.withSteer s.steer.strobe) h rfl
  | status part => exact now_of_portCommand h fun _ _ => rfl
  | peekAttention part => exact now_of_portCommand h fun _ _ => rfl
  | takeAttention part => exact now_of_portCommand h fun _ _ => rfl
  | selectTable table index part => exact now_of_portCommand h (selectEffect_now table index)
  | readEntry part => exact now_of_portCommand h fun _ _ => rfl
  | fetchComplete => exact fetchComplete_now h
  | readCounters clear part => exact now_of_portCommand h (countersEffect_now clear)
  | setHold mode part => exact now_of_portCommand h (holdEffect_now mode)
  | pin radio part => exact now_of_portCommand h fun _ u => State.pinRadio_now radio u
  | unpin radio part => exact now_of_portCommand h fun _ u => State.unpinRadio_now radio u
  | listenOnly setting part => exact now_of_portCommand h (listenEffect_now setting)
  | flush part => exact now_of_portCommand h flushEffect_now
  | flushComplete => exact now_of_serve h (now_onlyIf rfl)
  | reload part => exact now_of_portCommand h reloadEffect_now
  | unknownCommand code part =>
    exact now_of_serveIf h (State.portCommand_keeps State.now _ part (fun _ _ _ _ => rfl) (fun _ _ => rfl) s)

/-! ### Ticks and old marks (R161, R181, R183) -/

theorem exec_tick {s : State} (h : s.resetHeld = false) :
    exec .tick s = .next ((s.withNow (s.now + 1)).withLink s.link.countDown) :=
  serve_high (fun s => (s.withNow (s.now + 1)).withLink s.link.countDown) h

theorem Link.countDown_count {l : Link} {b : Nat} (h : l.txState = .backoff b) :
    l.countDown = { l with txState := .backoff (b - 1) } := by
  rw [Link.countDown, h]

theorem Link.countDown_other {l : Link} (h : ∀ b, l.txState ≠ .backoff b) : l.countDown = l := by
  unfold Link.countDown
  split
  · next hst => exact absurd hst (h _)
  · rfl

/-- A stamp of exactly the age is marked (R183). -/
theorem MarkedStamp.age_old {now : Time} {m : MarkedStamp} (h : (now - m.time).toNat = 25500) :
    m.age now = { time := m.time, old := true } :=
  if_pos h

/-- Settles O4: no other command changes site time, and TICK and OLD_MARK change nothing else but the count and the mark. -/
theorem siteTimeAdvancesByTicksAlone : Obligations.SiteTimeAdvancesByTicksAlone := by
  refine ⟨fun c s t h hreset htick => exec_now h hreset htick, fun s => ⟨_, exec_hardReset s, rfl⟩, ?_, ?_, ?_, ?_⟩
  · intro s hhigh hcount
    rw [exec_tick hhigh, Link.countDown_other hcount]
    rfl
  · intro s b hhigh hcount
    rw [exec_tick hhigh, Link.countDown_count hcount]
    rfl
  · intro s m hhigh hstamp hage
    show execOldMark .lastSent s = _
    rw [execOldMark, serve_high _ hhigh]
    dsimp only
    rw [hstamp, Option.map_some, MarkedStamp.age_old hage]
    rfl
  · intro s m hhigh hstamp hage
    show execOldMark .quietSince s = _
    rw [execOldMark, serve_high _ hhigh]
    dsimp only
    rw [hstamp, Option.map_some, MarkedStamp.age_old hage]
    rfl

end Sys2Proof.Machine

/-! ## The load monitor, the waits of the transmitter, and the carrier's rise (R150, R158, R160 to R166) -/

namespace Sys2Proof.Machine

/-! ### The end of a window (R166) -/

/-- W doubles up to 64, halves down to 4, or stays. -/
theorem nextWindow_eq (threshold onsets : Nat) {w : Nat} (h : w ∈ [4, 8, 16, 32, 64]) :
    nextWindow threshold onsets w =
      if threshold ≤ onsets then min 64 (2 * w) else if onsets < threshold / 2 then max 4 (w / 2) else w := by
  unfold nextWindow
  have hw : w = 4 ∨ w = 8 ∨ w = 16 ∨ w = 32 ∨ w = 64 := by simpa using h
  split_ifs <;> omega

/-- Settles O33: the window end at its deadline, W being one of its five values. -/
theorem windowEndFollowsTheLoad : Obligations.WindowEndFollowsTheLoad := by
  intro s w hreset hdeadline hwindow hw
  show execWindowEnd s = _
  rw [execWindowEnd, serve_high _ hreset, if_pos (by simp [reached, hdeadline]), hwindow, Option.map_some,
    nextWindow_eq _ _ hw]
  rfl

/-! ### The carrier's rise (R150, R158, R161, R165) -/

theorem State.loaded_iff (s : State) :
    s.loaded = true ↔ s.loader.opState = .running ∨ s.loader.opState = .flushing := by
  simp [State.loaded]

/-- The state of the transmitter at a rise of LNK_CD: a running count is held in DEFER (R161). -/
def TxState.frozen : TxState → TxState
  | .backoff b => .defer (some b)
  | x => x

theorem TxState.frozen_other {x : TxState} (h : ∀ b, x ≠ .backoff b) : x.frozen = x := by
  unfold TxState.frozen
  split
  · exact absurd rfl (h _)
  · rfl

/-- While no count has run out a rise of LNK_CD changes the state of the transmitter alone. -/
theorem Link.frozen_eq {l : Link} (h : l.txState ≠ .backoff 0) : l.frozen = { l with txState := l.txState.frozen } := by
  by_cases hst : ∃ b, l.txState = .backoff b
  · obtain ⟨b, hst⟩ := hst
    rw [Link.frozen_count hst fun hb => h (hb ▸ hst), hst]
    rfl
  · have hother : ∀ b, l.txState ≠ .backoff b := fun b hb => hst ⟨b, hb⟩
    rw [Link.frozen_other hother, TxState.frozen_other hother]

theorem exec_carrierOnset {s : State} (hreset : s.resetHeld = false) (hcarrier : s.link.lnkCd = false)
    (hcount : s.link.txState ≠ .backoff 0) :
    exec .carrierOnset s = .next
      { s with
        link :=
          { s.link with
            lnkCd := true
            collection := if s.loader.opState = .running ∨ s.loader.opState = .flushing then .collecting else .dropping
            onsets := if s.link.windowDeadline = none then s.link.onsets else saturate s.link.onsets
            quietSince := none
            txState := s.link.txState.frozen } } := by
  have hcounted : s.link.countOnset.txState ≠ .backoff 0 := by rw [Link.countOnset_eq]; exact hcount
  show execCarrierOnset s = _
  rw [execCarrierOnset, if_neg (by simp [hcarrier]), if_neg (by simp [hreset]), Link.carrierRises_eq,
    Link.frozen_eq hcounted, Link.countOnset_eq]
  simp only [State.loaded_iff]
  rfl

/-- Settles O34: a count is frozen, and any other state of the transmitter stays. -/
theorem carrierOnsetFreezesTheCount : Obligations.CarrierOnsetFreezesTheCount := by
  intro s hreset hcarrier hcount
  exact ⟨_, exec_carrierOnset hreset hcarrier hcount, rfl, rfl, fun b hb => congrArg TxState.frozen hb,
    TxState.frozen_other⟩

/-! ### The waits of the transmitter run out (R160 to R163) -/

/-- The link with its head frame keyed (R161). -/
def Link.keyedHead (l : Link) (head : TxItem) (rest : List TxItem) : Link :=
  { l with tx := { head with keyed := true } :: rest, quietSince := none, txState := .sending }

section
variable {l : Link} {w : Nat} (hw : l.window = some w)
include hw

/-- A draw that is not 0 modulo W is counted down (R160, R163). -/
theorem Link.idleGapEnd_counts (hdraw : (shiftRegister l.register).toNat % w ≠ 0) :
    l.idleGapEnd none =
      { l with
        register := shiftRegister l.register, txState := .backoff ((shiftRegister l.register).toNat % w) } := by
  rw [Link.idleGapEnd_draws hw, Link.enterBackoff_pos hdraw]; rfl

/-- A draw of 0 modulo W keys at once (R160, R161). -/
theorem Link.idleGapEnd_keys {head : TxItem} {rest : List TxItem} (hdraw : (shiftRegister l.register).toNat % w = 0)
    (hhead : l.tx = head :: rest) : l.idleGapEnd none = l.drawn.keyedHead head rest := by
  rw [Link.idleGapEnd_draws hw, hdraw, Link.enterBackoff_keys (l := l.drawn) hhead]; rfl

end

theorem exec_idleGapDeadline {s : State} {m : MarkedStamp} {held : Option Nat} (hreset : s.resetHeld = false)
    (hquiet : s.link.quietSince = some m) (hdue : s.now = m.time + BitVec.ofNat 32 (s.par .idleGap))
    (hst : s.link.txState = .defer held) : exec .idleGapDeadline s = .next (s.withLink (s.link.idleGapEnd held)) := by
  show execIdleGapDeadline s = _
  rw [execIdleGapDeadline, serve_high _ hreset]
  rw [hst, hquiet]
  exact congrArg _ (if_pos (beq_iff_eq.mpr hdue))

theorem exec_spacingEnd {s : State} (hreset : s.resetHeld = false) (hst : s.link.txState = .spacing s.now) :
    exec .spacingEnd s = .next (s.withLink (s.link.endSpacing s.now (s.par .idleGap))) := by
  show execSpacingEnd s = _
  rw [execSpacingEnd, serve_high _ hreset]
  rw [hst]
  exact congrArg _ (if_pos rfl)

/-- On a channel that has been quiet for the idle gap SPACING ends in a draw (R160, R162). -/
theorem Link.endSpacing_draws {l : Link} (h : l.tx ≠ []) {now : Time} {idleGap : Nat}
    (hquiet : l.quietFor now idleGap = true) :
    l.endSpacing now idleGap = { l with txState := .defer none }.idleGapEnd none := by
  rw [Link.endSpacing, if_neg (by simpa using h), Link.enterDefer_quiet hquiet]

/-- A channel not marked quiet, or for less than `t` ticks, has not been quiet for `t`. -/
theorem Link.quietFor_short {l : Link} {m : MarkedStamp} (h : l.quietSince = some m) (hold : m.old = false) {now : Time}
    {t : Nat} (hshort : (now - m.time).toNat < t) : l.quietFor now t = false := by
  rw [← Bool.not_eq_true, Link.quietFor_iff h]
  simp only [hold, Bool.false_eq_true, false_or]
  exact Nat.not_le.mpr hshort

/-- Settles O32: each wait at its end, by what is held, what is drawn and what waits. -/
theorem transmitterWaitsRunOut : Obligations.TransmitterWaitsRunOut := by
  intro s m hreset drawn keyed
  refine ⟨fun hquiet hdue => ⟨fun b hb hpos => ?_, ?_⟩, fun head rest hst hhead => ?_,
    fun hst => ⟨fun hempty => ?_, fun hwaits => ⟨fun hnot => ?_, ?_⟩⟩⟩
  · rw [exec_idleGapDeadline hreset hquiet hdue hb]
    exact congrArg _ (congrArg s.withLink (Link.enterBackoff_pos hpos s.link))
  · intro w hst hw r
    refine ⟨fun hdraw => ?_, fun head rest hdraw hhead => ?_⟩
    · rw [exec_idleGapDeadline hreset hquiet hdue hst, Link.idleGapEnd_counts hw hdraw]; rfl
    · rw [exec_idleGapDeadline hreset hquiet hdue hst, Link.idleGapEnd_keys hw hdraw hhead]; rfl
  · show execBackoffEnd s = _
    rw [execBackoffEnd, serve_high _ hreset, if_pos hst, Link.key_head hhead]; rfl
  · rw [exec_spacingEnd hreset hst, Link.endSpacing_idle hempty]; rfl
  · have hunquiet : s.link.quietFor s.now (s.par .idleGap) = false := by
      rcases hnot with hnone | ⟨hstamp, hold, hshort⟩
      · exact Link.quietFor_unquiet hnone ..
      · exact Link.quietFor_short hstamp hold hshort
    rw [exec_spacingEnd hreset hst, Link.endSpacing_defers hwaits hunquiet]; rfl
  · intro w hquiet hgap hw r
    have hdrawn := Link.endSpacing_draws hwaits ((Link.quietFor_iff hquiet s.now (s.par .idleGap)).mpr hgap)
    refine ⟨fun hdraw => ?_, fun head rest hdraw hhead => ?_⟩
    · rw [exec_spacingEnd hreset hst, hdrawn,
        Link.idleGapEnd_counts (l := { s.link with txState := .defer none }) hw hdraw]
      rfl
    · rw [exec_spacingEnd hreset hst, hdrawn,
        Link.idleGapEnd_keys (l := { s.link with txState := .defer none }) hw hdraw hhead]
      rfl

end Sys2Proof.Machine

/-! ## The carrier's fall (R150 to R153, R158) -/

namespace Sys2Proof.Machine

theorem LinkFrame.source_byte (f : LinkFrame) : byteAt f.bytes 1 = f.source := rfl

/-! ### The judgement by the tests of R151 -/

/-- Bytes that pass R151 and name this site as their source are a clash (R152). -/
theorem judge_clash {bytes : List Byte} {own : Byte} (h : passesTests bytes = true) (hown : byteAt bytes 1 = own) :
    judge own bytes = .clash := by
  obtain ⟨f, hf, rfl⟩ := wellMade_of_passesTests h
  rw [hf.judge, if_pos (f.source_byte ▸ hown)]

/-- Bytes that pass R151 and name another site are a frame with those bytes. -/
theorem judge_passed {bytes : List Byte} {own : Byte} (h : passesTests bytes = true) (hown : byteAt bytes 1 ≠ own) :
    ∃ f : LinkFrame, f.bytes = bytes ∧ judge own bytes = .passed f := by
  obtain ⟨f, hf, rfl⟩ := wellMade_of_passesTests h
  exact ⟨f, rfl, by rw [hf.judge, if_neg (f.source_byte ▸ hown)]⟩

theorem ne_nil_of_passesTests {bytes : List Byte} (h : passesTests bytes = true) : bytes ≠ [] := by
  rintro rfl
  exact absurd h (by decide)

/-! ### The collected bytes judged (R150 to R153) -/

theorem State.judgeCollected_nil (s : State) : s.judgeCollected [] = s := rfl

section
variable {s : State} {bytes : List Byte} (h : bytes ≠ [])
include h

theorem State.judgeCollected_discarded (hj : judge s.ownSite bytes = .discarded) :
    s.judgeCollected bytes = s.bump .linkDiscarded := by
  rw [State.judgeCollected, if_neg (by simpa using h), hj]

theorem State.judgeCollected_clash (hj : judge s.ownSite bytes = .clash) :
    s.judgeCollected bytes = (s.bump .siteClash).raise .siteClash := by
  rw [State.judgeCollected, if_neg (by simpa using h), hj]

/-- A frame that passed joins the tail of a queue with room (R153). -/
theorem State.judgeCollected_room {f : LinkFrame} (hj : judge s.ownSite bytes = .passed f)
    (hroom : s.link.rx.length < 16) : s.judgeCollected bytes = s.withLink { s.link with rx := s.link.rx ++ [f] } := by
  have hfull : s.link.rxFull = false := decide_eq_false (Nat.not_le.mpr hroom)
  have hreceive : s.link.receive f = { s.link with rx := s.link.rx ++ [f] } := if_neg (ne_true_of_eq_false hfull)
  rw [State.judgeCollected, if_neg (by simpa using h), hj]
  dsimp only
  rw [hfull, hreceive]
  rfl

/-- A frame that passed is lost where the queue is full (R153). -/
theorem State.judgeCollected_full {f : LinkFrame} (hj : judge s.ownSite bytes = .passed f)
    (hsize : 16 ≤ s.link.rx.length) : s.judgeCollected bytes = (s.bump .rxOverflow).raise .rxOverflow := by
  have hfull : s.link.rxFull = true := decide_eq_true hsize
  have hreceive : s.link.receive f = s.link := if_pos hfull
  rw [State.judgeCollected, if_neg (by simpa using h), hj]
  dsimp only
  rw [hfull, hreceive]
  rfl

end

/-! ### The fall -/

/-- The link at a fall of LNK_CD: the collection ended, and the channel quiet since then, if the stamp is set (R158). -/
def State.fallenLink (s : State) : Link :=
  { s.link with
    lnkCd := false, collection := .idle
    quietSince :=
      if (s.loader.opState = .running ∨ s.loader.opState = .flushing) ∧ s.link.txState ≠ .sending then
        some { time := s.now, old := false }
      else s.link.quietSince }

theorem State.carrierFalls_link (s : State) : s.link.carrierFalls s.now s.loaded = s.fallenLink := by
  rw [Link.carrierFalls_eq]
  simp only [State.loaded_iff]
  rfl

theorem exec_carrierFall {s : State} (hreset : s.resetHeld = false) (hcarrier : s.link.lnkCd = true) (bytes : List Byte) :
    exec (.carrierFall bytes) s = .next
      (if s.link.collection = .collecting then (s.withLink s.fallenLink).judgeCollected bytes
      else s.withLink s.fallenLink) := by
  show execCarrierFall bytes s = _
  rw [execCarrierFall, if_neg (by simp [hcarrier]), if_neg (by simp [hreset]), State.carrierFalls_link]

/-- Settles O35: a fall by the bytes collected, their source and the room in the queue. -/
theorem carrierFallJudgesTheFrame : Obligations.CarrierFallJudgesTheFrame := by
  intro s bytes hreset hcarrier fallen own
  refine ⟨fun hnone => ?_, fun hcoll hbytes hfails => ?_, fun hcoll hpasses hown => ?_,
    fun hcoll hpasses hother hroom => ?_, fun hcoll hpasses hother hfull => ?_⟩ <;>
    rw [exec_carrierFall hreset hcarrier]
  · rcases hnone with hcoll | rfl
    · rw [if_neg hcoll]; rfl
    · rw [State.judgeCollected_nil, ite_self]; rfl
  · rw [if_pos hcoll, State.judgeCollected_discarded hbytes (judge_of_not_passesTests hfails _)]; rfl
  · have hjudged : judge (s.withLink s.fallenLink).ownSite bytes = .clash := judge_clash hpasses hown
    rw [if_pos hcoll, State.judgeCollected_clash (ne_nil_of_passesTests hpasses) hjudged]; rfl
  · obtain ⟨f, hbytes, hjudged⟩ : ∃ f, f.bytes = bytes ∧ judge (s.withLink s.fallenLink).ownSite bytes = .passed f :=
      judge_passed hpasses hother
    refine ⟨f, hbytes, ?_⟩
    rw [if_pos hcoll, State.judgeCollected_room (ne_nil_of_passesTests hpasses) hjudged hroom]; rfl
  · obtain ⟨f, -, hjudged⟩ : ∃ f, f.bytes = bytes ∧ judge (s.withLink s.fallenLink).ownSite bytes = .passed f :=
      judge_passed hpasses hother
    rw [if_pos hcoll, State.judgeCollected_full (ne_nil_of_passesTests hpasses) hjudged hfull]; rfl

end Sys2Proof.Machine

/-! ## The offer of a frame (R148, R149, R151, R155, R156, R159, R160) -/

namespace Sys2Proof.Machine

/-! ### The verdict by class, room and the HEARD frames held (R156) -/

/-- Outside RUNNING and in MUTED every offer is discarded (R155). -/
theorem Link.verdict_closed {l : Link} {running : Bool} (h : ¬(running = true ∧ l.txState ≠ .muted))
    (kind : FrameKind) :
    l.verdict running kind = .discarded := by
  have hclosed : (!running || l.txState == .muted) = true := by cases running <;> simp_all
  rw [Link.verdict, if_pos hclosed]

/-- A HEARD frame is discarded where another is held. -/
theorem Link.verdict_heard_held {l : Link} (h : ∃ x ∈ l.tx, x.frame.kind = .heard) (running : Bool) :
    l.verdict running .heard = .discarded := by
  have hheld : (l.tx.any fun x => x.frame.isHeard) = true := by simpa [LinkFrame.isHeard] using h
  simp [Link.verdict, hheld]

section
variable {l : Link} {kind : FrameKind} (hmuted : l.txState ≠ .muted) (hkind : kind ≠ .heard)
include hmuted hkind

/-- The verdict on a negotiation frame, by the room and the HEARD frame that waits. -/
theorem Link.verdict_negotiation :
    l.verdict true kind =
      if l.tx.length < 16 then .accepted
      else if l.tx.any fun x => x.frame.isHeard && !x.keyed then .displacing else .discarded := by
  have hopen : ¬(!true || l.txState == .muted) = true := by simpa using hmuted
  rw [Link.verdict, if_neg hopen, if_neg hkind]
  rfl

theorem Link.verdict_negotiation_room (hroom : ¬16 ≤ l.tx.length) : l.verdict true kind = .accepted := by
  rw [Link.verdict_negotiation hmuted hkind, if_pos (Nat.not_le.mp hroom)]

theorem Link.verdict_negotiation_full (hfull : 16 ≤ l.tx.length) :
    l.verdict true kind = if ∃ x ∈ l.tx, x.frame.kind = .heard ∧ x.keyed = false then .displacing else .discarded := by
  rw [Link.verdict_negotiation hmuted hkind, if_neg (Nat.not_lt.mpr hfull)]
  exact if_congr (by simp [LinkFrame.isHeard]) rfl rfl

end

/-- Into an empty queue every offer is accepted. -/
theorem Link.verdict_empty {l : Link} (hempty : l.tx = []) (hmuted : l.txState ≠ .muted) (kind : FrameKind) :
    l.verdict true kind = .accepted := by
  by_cases hkind : kind = .heard
  · rw [hkind]
    exact Link.verdict_heard_accepted (by simp [hempty]) (by simp [hempty]) hmuted
  · exact Link.verdict_negotiation_room hmuted hkind (by simp [hempty])

/-! ### The queue with the frame -/

theorem insertFrame_negotiation {f : LinkFrame} (h : f.kind ≠ .heard) (tx : List TxItem) :
    insertFrame f tx =
      (tx.filter fun x => x.frame.kind != .heard) ++ { frame := f, keyed := false }
        :: tx.filter fun x => x.frame.kind == .heard :=
  if_neg (by rwa [LinkFrame.isHeard_iff])

theorem insertFrame_heard {f : LinkFrame} (h : f.kind = .heard) (tx : List TxItem) :
    insertFrame f tx = tx ++ [{ frame := f, keyed := false }] :=
  if_pos (f.isHeard_iff.mpr h)

theorem Link.undisplaced_negotiation (l : Link) :
    (l.undisplaced.filter fun x => x.frame.kind != .heard) = l.tx.filter fun x => x.frame.kind != .heard := by
  rw [Link.undisplaced, List.filter_filter]
  refine congrArg (l.tx.filter ·) (funext fun x => ?_)
  cases hx : x.frame.kind == .heard <;> simp [LinkFrame.isHeard, bne, hx]

/-- Of the HEARD frames a displacement leaves the keyed. -/
theorem Link.undisplaced_heard (l : Link) :
    (l.undisplaced.filter fun x => x.frame.kind == .heard)
      = (l.tx.filter fun x => x.frame.kind == .heard).filter fun x => x.keyed := by
  rw [Link.undisplaced, List.filter_filter, List.filter_filter]
  refine congrArg (l.tx.filter ·) (funext fun x => ?_)
  cases hx : x.frame.kind == .heard <;> simp [LinkFrame.isHeard, hx]

/-! ### The offer by its verdict -/

/-- The item that an offer makes: the frame completed, not keyed (R148). -/
def State.offered (dest : Byte) (kind : FrameKind) (body : List Byte) (s : State) : TxItem :=
  { frame := completeFrame s.ownSite dest kind body, keyed := false }

section
variable {s : State} {kind : FrameKind}

theorem State.offer_discarded (h : s.link.verdict s.running kind = .discarded) (dest : Byte) (body : List Byte) :
    s.offer dest kind body = s.withPort (s.port.bump .txDropped) := by
  have hlink := Link.offer_discarded (f := completeFrame s.ownSite dest kind body) h s.now (s.par .idleGap)
  rw [State.offer, h, hlink]
  rfl

theorem State.offer_displacing (h : s.link.verdict s.running kind = .displacing) (dest : Byte) (body : List Byte) :
    s.offer dest kind body =
      (s.withLink { s.link with tx := insertFrame (s.offered dest kind body).frame s.link.undisplaced }).withPort
        (s.port.bump .txDropped) := by
  have hverdict : s.link.verdict s.running (completeFrame s.ownSite dest kind body).kind = .displacing := h
  rw [State.offer, h, Link.offer, hverdict]
  rfl

theorem State.offer_joins (h : s.link.verdict s.running kind = .accepted)
    (hbusy : ¬(s.link.tx = [] ∧ s.link.txState = .idle)) (dest : Byte) (body : List Byte) :
    s.offer dest kind body =
      s.withLink { s.link with tx := insertFrame (s.offered dest kind body).frame s.link.tx } := by
  have hverdict : s.link.verdict s.running (completeFrame s.ownSite dest kind body).kind = .accepted := h
  rw [State.offer, h, Link.offer, hverdict]
  dsimp only
  rw [if_neg fun h => hbusy h.symm]
  rfl

theorem State.offer_starts (h : s.link.verdict s.running kind = .accepted) (hempty : s.link.tx = [])
    (hidle : s.link.txState = .idle) (dest : Byte) (body : List Byte) :
    s.offer dest kind body =
      s.withLink ({ s.link with tx := [s.offered dest kind body] }.start s.now (s.par .idleGap)) := by
  have hverdict : s.link.verdict s.running (completeFrame s.ownSite dest kind body).kind = .accepted := h
  rw [State.offer, h, Link.offer, hverdict]
  dsimp only
  rw [if_pos ⟨hidle, hempty⟩, hempty, insertFrame_nil]
  rfl

end

/-! ### The start from IDLE by what the channel has been quiet for (R159, R160) -/

section
variable {l : Link} {w : Nat} (hw : l.window = some w) {now : Time} {idleGap : Nat}
include hw

theorem Link.start_keys (hquiet : l.quietFor now (idleGap + w) = true) : l.start now idleGap = l.key := by
  rw [Link.start, hw]
  exact if_pos hquiet

theorem Link.start_defers (hquiet : l.quietFor now (idleGap + w) = false) :
    l.start now idleGap = l.enterDefer now idleGap none := by
  rw [Link.start, hw]
  exact if_neg (ne_true_of_eq_false hquiet)

end

/-! ### The frame completed, and the offer -/

/-- The link with an offered frame alone in its queue. -/
def State.starting (dest : Byte) (kind : FrameKind) (body : List Byte) (s : State) : Link :=
  { s.link with tx := [s.offered dest kind body] }

section
variable {s : State} {dest : Byte} {kind : FrameKind} {body : List Byte}
  (hrunning : s.running = true) (hempty : s.link.tx = []) (hidle : s.link.txState = .idle)
include hrunning hempty hidle

theorem State.offer_idle :
    s.offer dest kind body = s.withLink ((s.starting dest kind body).start s.now (s.par .idleGap)) :=
  State.offer_starts (hrunning ▸ Link.verdict_empty hempty (by simp [hidle]) kind) hempty hidle dest body

variable {w : Nat} (hw : s.link.window = some w)
include hw

/-- A channel quiet for idle gap + W ticks has the frame keyed (R159). -/
theorem State.offer_keys (hquiet : s.link.quietFor s.now (s.par .idleGap + w) = true) :
    s.offer dest kind body = s.withLink (s.link.keyedHead (s.offered dest kind body) []) := by
  rw [State.offer_idle hrunning hempty hidle, Link.start_keys (l := s.starting dest kind body) hw hquiet,
    Link.key_head (l := s.starting dest kind body) rfl]
  rfl

/-- A channel not quiet for the idle gap has the frame wait in DEFER (R159, R160). -/
theorem State.offer_defers (hquiet : s.link.quietFor s.now (s.par .idleGap + w) = false)
    (hgap : s.link.quietFor s.now (s.par .idleGap) = false) :
    s.offer dest kind body = s.withLink { s.starting dest kind body with txState := .defer none } := by
  rw [State.offer_idle hrunning hempty hidle, Link.start_defers (l := s.starting dest kind body) hw hquiet,
    Link.enterDefer_waits (l := s.starting dest kind body) hgap]

/-- A channel quiet for the idle gap alone has a count drawn (R160). -/
theorem State.offer_draws (hquiet : s.link.quietFor s.now (s.par .idleGap + w) = false)
    (hgap : s.link.quietFor s.now (s.par .idleGap) = true) :
    s.offer dest kind body = s.withLink ({ s.starting dest kind body with txState := .defer none }.idleGapEnd none) := by
  rw [State.offer_idle hrunning hempty hidle, Link.start_defers (l := s.starting dest kind body) hw hquiet,
    Link.enterDefer_quiet (l := s.starting dest kind body) hgap]

end

/-- A frame completed here is judged as itself elsewhere, and as a clash here. -/
theorem judge_completeFrame {own other : Byte} (hown : own ≠ 0 ∧ own ≠ 255) (hother : other ≠ own) (dest : Byte)
    {kind : FrameKind} {body : List Byte} (hfits : bodyFits kind body = true) :
    judge other (completeFrame own dest kind body).bytes = .passed (completeFrame own dest kind body)
      ∧ judge own (completeFrame own dest kind body).bytes = .clash := by
  have hmade := completeFrame_wellMade hown hfits dest
  exact ⟨(hmade.judge other).trans (if_neg hother.symm), (hmade.judge own).trans (if_pos rfl)⟩

/-- Settles O45: the judgement of a completed frame, and an offer by its verdict and by how long the channel was quiet. -/
theorem completedFramePassesElsewhere : Obligations.CompletedFramePassesElsewhere := by
  refine ⟨fun own other dest kind body hzero hall hother hfits =>
    judge_completeFrame ⟨hzero, hall⟩ hother dest hfits, ?_⟩
  intro s dest kind body item t counted accepts full heardHeld heardWaits starts ahead behind
  have hrunning (h : accepts) : s.running = true := by simp [State.running, h.1]
  refine ⟨fun hclosed => ?_, fun hopen hkind => ⟨fun hroom hbusy => ?_, fun hfull hwaits => ?_, fun hfull hnone => ?_⟩,
    fun hopen hkind => ⟨fun hdrop => ?_, fun hnone hroom hbusy => ?_⟩, fun hopen hstarts w hw => ?_⟩
  · refine State.offer_discarded (Link.verdict_closed (fun h => hclosed ⟨?_, h.2⟩) kind) dest body
    simpa [State.running] using h.1
  · have hverdict := Link.verdict_negotiation_room hopen.2 hkind hroom
    refine (State.offer_joins (hrunning hopen ▸ hverdict) hbusy dest body).trans ?_
    rw [insertFrame_negotiation hkind]; rfl
  · have hverdict := (Link.verdict_negotiation_full hopen.2 hkind hfull).trans (if_pos hwaits)
    refine (State.offer_displacing (hrunning hopen ▸ hverdict) dest body).trans ?_
    rw [insertFrame_negotiation hkind, Link.undisplaced_negotiation, Link.undisplaced_heard]; rfl
  · have hverdict := (Link.verdict_negotiation_full hopen.2 hkind hfull).trans (if_neg hnone)
    exact State.offer_discarded (hrunning hopen ▸ hverdict) dest body
  · refine State.offer_discarded ?_ dest body
    rw [hkind]
    exact hdrop.elim (Link.verdict_heard_held · _) (Link.verdict_heard_full · _)
  · have hverdict : s.link.verdict true kind = .accepted :=
      hkind ▸ Link.verdict_heard_accepted (fun x hx h => hnone ⟨x, hx, h⟩) (Nat.not_le.mp hroom) hopen.2
    refine (State.offer_joins (hrunning hopen ▸ hverdict) hbusy dest body).trans ?_
    rw [insertFrame_heard hkind]; rfl
  · obtain ⟨hempty, hidle⟩ := hstarts
    have hrun := hrunning hopen
    intro register keyed
    refine ⟨fun hnone => State.offer_defers hrun hempty hidle hw (Link.quietFor_unquiet hnone ..)
      (Link.quietFor_unquiet hnone ..), ?_⟩
    intro m hm quiet
    refine ⟨fun hlong => ?_, fun hold hshort => ?_, fun hold hgap hshort => ?_⟩
    · exact State.offer_keys hrun hempty hidle hw ((Link.quietFor_iff hm ..).mpr hlong)
    · exact State.offer_defers hrun hempty hidle hw (Link.quietFor_short hm hold (Nat.lt_add_right w hshort))
        (Link.quietFor_short hm hold hshort)
    · have hdraws : t = _ := State.offer_draws hrun hempty hidle hw (Link.quietFor_short hm hold hshort)
        ((Link.quietFor_iff hm ..).mpr (.inr hgap))
      refine ⟨fun hdraw => hdraws.trans ?_, fun hdraw => hdraws.trans ?_⟩
      · rw [Link.idleGapEnd_counts (l := { s.starting dest kind body with txState := .defer none }) hw hdraw]
        rfl
      · rw [Link.idleGapEnd_keys (l := { s.starting dest kind body with txState := .defer none }) hw hdraw rfl]
        rfl

end Sys2Proof.Machine

/-! ## A load that succeeds (R163 to R165, R169, R177 to R179) -/

namespace Sys2Proof.Machine

/-! ### The image copy (R177, R178) -/

/-- Every parameter but initial W is held at the nearer limit of its range. -/
theorem clampParam_nearer {p : Config.Param} (h : p ≠ .initialWindow) (v : Nat) :
    clampParam p v = max (paramRange p).1 (min v (paramRange p).2) :=
  if_neg h

/-- Initial W is held as the greatest power of two from 4 to 64 that is not above the number read, and as 4 below it. -/
theorem clampParam_window_power (v : Nat) :
    ∃ k, 2 ≤ k ∧ k ≤ 6 ∧ clampParam .initialWindow v = 2 ^ k ∧ (k = 2 ∨ 2 ^ k ≤ v) ∧ (k = 6 ∨ v < 2 ^ (k + 1)) := by
  have hclamp : clampParam .initialWindow v = roundWindow (max 4 (min v 64)) := by
    rw [clampParam, if_pos rfl]; rfl
  rw [hclamp, roundWindow]
  split_ifs with h64 h32 h16 h8
  · exact ⟨6, by omega⟩
  · exact ⟨5, by omega⟩
  · exact ⟨4, by omega⟩
  · exact ⟨3, by omega⟩
  · exact ⟨2, by omega⟩

theorem paramByte_range (p : Config.Param) : 52 ≤ paramByte p ∧ paramByte p ≤ 77 := by
  cases p <;> decide

/-- No parameter stands outside bytes 52 to 77. -/
theorem paramAt_none {k : Nat} (h : k < 52 ∨ 77 < k) : paramAt k = none := by
  refine List.find?_eq_none.mpr fun p _ hp => ?_
  have hbyte : paramByte p = k := by simpa using hp
  have hrange := paramByte_range p
  omega

/-- A parameter read from the image copy is the byte as read, clamped. -/
theorem State.par_of_image {t : State} {image : List Byte} (h : t.loader.image = clampImage image) (p : Config.Param) :
    t.par p = clampParam p (byteAt image (paramByte p)).toNat := by
  have hrange := clampParam_range p (byteAt image (paramByte p)).toNat
  have hfits := (paramRange_le p).2
  rw [State.par, h, byteAt_clampImage_param (paramByte_lt p) (paramAt_paramByte p), numByte_toNat (by omega)]

/-! ### The neighbour records and the seed (R90, R163, R178) -/

theorem biasOfByte_eq (b : Byte) : biasOfByte b = (b.setWidth 5).toInt := by
  have hlow : b.extractLsb' 0 5 = b.setWidth 5 := BitVec.eq_of_toNat_eq (by simp)
  rw [biasOfByte, hlow]

/-- The record of a neighbour entry by its four bytes, UNKNOWN; an entry with site 0 is not used. -/
theorem neighboursOfImage_record (image : List Byte) (n : Fin 8) :
    (neighboursOfImage image)[n] =
      if byteAt image (4 + 4 * n.val) = 0 then NeighbourRecord.unused
      else
        { site := byteAt image (4 + 4 * n.val), channel := byteAt image (5 + 4 * n.val)
          bias := ((byteAt image (6 + 4 * n.val)).setWidth 5).toInt
          accept := (byteAt image (7 + 4 * n.val)).getLsbD 0
          state := .unknown, lastFrame := none, silence := none } := by
  have hrecord : (neighboursOfImage image)[n] = neighbourOfImage image n.val := by simp [neighboursOfImage]
  have hchannel : 4 + 4 * n.val + 1 = 5 + 4 * n.val := by omega
  have hbias : 4 + 4 * n.val + 2 = 6 + 4 * n.val := by omega
  have haccept : 4 + 4 * n.val + 3 = 7 + 4 * n.val := by omega
  rw [hrecord, neighbourOfImage, neighbourBase, hchannel, hbias, haccept, biasOfByte_eq]
  exact if_congr beq_iff_eq rfl rfl

/-- The seed of the backoff register holds the site number in both of its bytes. -/
theorem seed_eq (b : Byte) : (b ++ b : BitVec 16) = BitVec.ofNat 16 (b.toNat * 257) := by
  apply BitVec.eq_of_toNat_eq
  have hb := b.isLt
  rw [BitVec.toNat_append, ← Nat.shiftLeft_add_eq_or_of_lt hb, Nat.shiftLeft_eq, BitVec.toNat_ofNat,
    Nat.mod_eq_of_lt (by omega)]
  omega

/-! ### The load -/

theorem exec_readComplete {s : State} {pulses : Nat} {image : List Byte} (hreset : s.resetHeld = false)
    (hloading : s.loading = true) (hwell : (Instr.readComplete pulses image).wellFormed = true)
    (hpass : imagePasses image = true) :
    exec (.readComplete pulses image) s = .next
      ((s.withLoader { s.loader with buffer := image, bus := readSequence pulses image }).succeedLoad image) := by
  show execReadComplete pulses image s = _
  rw [execReadComplete, serveIf_true _ _ hwell, serve_high _ hreset, if_pos hloading]
  dsimp only
  rw [if_pos hpass]

/-- The link at the success of a load. -/
theorem Link.loadDone_eq (now : Time) (image : List Byte) (l : Link) :
    l.loadDone now image =
      { l with
        quietSince := if l.lnkCd then l.quietSince else some { time := now, old := false }
        register := BitVec.ofNat 16 ((byteAt image 1).toNat * 257)
        window := some (clampParam .initialWindow (byteAt image 71).toNat)
        windowDeadline := some (now + 100)
        onsets := 0
        txState := if (byteAt image 3).getLsbD 0 then .muted else .idle } := by
  rw [Link.loadDone, Link.becomeQuiet_eq, seed_eq]
  rfl

/-- Settles O10: what a load that passes makes of each block. -/
theorem passingImageEntersRunning : Obligations.PassingImageEntersRunning := by
  intro s pulses image hreset hloading hpulses hlength hpass
  have hwell : (Instr.readComplete pulses image).wellFormed = true := by
    simp [Instr.wellFormed, hpulses, hlength, Config.imageSize]
  generalize ht : (s.withLoader { s.loader with buffer := image, bus := readSequence pulses image }).succeedLoad image = t
  have himage : t.loader.image = clampImage image := by rw [← ht]; rfl
  have hlink : t.link = s.link.loadDone s.now image := by rw [← ht]; rfl
  have hpar := State.par_of_image himage
  refine ⟨t, ht ▸ exec_readComplete hreset hloading hwell hpass, ⟨?_, ?_, ?_⟩, fun p hp => ?_, ?_, fun k hk hout => ?_,
    fun n => ?_, ?_, ?_, ?_, ?_, ?_⟩
  · rw [← ht]; rfl
  · rw [← ht]; rfl
  · rw [himage]; exact clampImage_length image
  · rw [hpar, clampParam_nearer hp]
  · rw [hpar]; exact clampParam_window_power _
  · rw [himage]; exact byteAt_clampImage_other hk (paramAt_none hout) image
  · rw [← ht]; exact neighboursOfImage_record image n
  · rw [← ht]; rfl
  · rw [← ht]; rfl
  · rw [hpar, hlink, Link.loadDone_eq]
    exact ⟨rfl, rfl, rfl, rfl, fun hlow => if_neg (by simp [hlow]), fun hhigh => if_pos hhigh, rfl, rfl, rfl, rfl⟩
  · rw [hpar, ← ht]; rfl
  · simp [← ht, hreset]

end Sys2Proof.Machine

/-! ## Loads begun and loads failed (R171 to R176, R180) -/

namespace Sys2Proof.Machine

/-! ### The beginning of a load (R171, R172, R180) -/

theorem State.beginLoad_eq (s : State) :
    s.beginLoad =
      { s with
        loader :=
          { opState := .loading, buffer := [], image := s.loader.image, deadline := some (s.now + 100), bus := [] } } :=
  rfl

theorem exec_resetRelease {s : State} (h : s.resetHeld = true) :
    exec .resetRelease s = .next (s.withReset false).beginLoad :=
  congrArg Host.Outcome.next (if_pos h)

theorem exec_reload_whole {s : State} {n : Nat} (hready : s.portReady = true) :
    exec (.reload (.whole n)) s =
      .next (reloadCommand.effect [] (s.withPort { s.port with mntDo := List.replicate (n + 1) 0x00 })) :=
  State.whole_silent hready rfl rfl rfl (Nat.zero_le n)

theorem exec_reload_begins {s : State} {n : Nat} (hready : s.portReady = true) (h : s.loader.opState = .configFault) :
    exec (.reload (.whole n)) s = .next (s.withPort { s.port with mntDo := List.replicate (n + 1) 0x00 }).beginLoad :=
  (exec_reload_whole hready).trans (congrArg Host.Outcome.next (if_pos (beq_iff_eq.mpr h)))

theorem exec_reload_dropped {s : State} {n : Nat} (hready : s.portReady = true) (h : s.loader.opState ≠ .configFault) :
    exec (.reload (.whole n)) s = .next (s.withPort { s.port with mntDo := List.replicate (n + 1) 0x00 }).dropCommand :=
  (exec_reload_whole hready).trans (congrArg Host.Outcome.next (if_neg (mt beq_iff_eq.mp h)))

/-- Settles O8: the release and a RELOAD in CONFIG_FAULT are the two events that begin a load. -/
theorem loadBeginsOnReleaseAndReload : Obligations.LoadBeginsOnReleaseAndReload := by
  refine ⟨fun s hheld => ?_, fun s n hready hfault => ?_, fun s n hready hother => ?_⟩
  · rw [exec_resetRelease hheld, State.beginLoad_eq]; rfl
  · rw [exec_reload_begins hready hfault, State.beginLoad_eq]; rfl
  · rw [exec_reload_dropped hready hother]; rfl

/-! ### The end of the bus operations (R173, R174) -/

theorem readSequence_stops (pulses : Nat) (image : List Byte) : (readSequence pulses image).getLast? = some .stop :=
  List.getLast?_concat ..

theorem missingAckSequence_stops (pulses : Nat) (point : AckPoint) :
    (missingAckSequence pulses point).getLast? = some .stop :=
  List.getLast?_concat ..

theorem stuckSequence_not_stopped : stuckSequence.getLast? ≠ some .stop := by decide

theorem stop_notMem_addressPhase : BusOp.stop ∉ addressPhase := by decide

theorem stop_notMem_receiveOps (bytes : List Byte) : BusOp.stop ∉ receiveOps bytes := by
  simp [receiveOps, List.mem_mapIdx]

/-- With the clock held low no stop condition has been sent, whatever was done before. -/
theorem stop_notMem_deadlineSequence_held (p : BusProgress) : BusOp.stop ∉ deadlineSequence p true := by
  have haddress : BusOp.stop ∉ addressPhase.take p.addressed := mt List.mem_of_mem_take stop_notMem_addressPhase
  simp [deadlineSequence, haddress, stop_notMem_receiveOps]

/-- A load that reaches its deadline ends with a stop condition exactly where the clock is free. -/
theorem deadlineSequence_stops_iff (p : BusProgress) (clockHeld : Bool) :
    (deadlineSequence p clockHeld).getLast? = some .stop ↔ clockHeld = false := by
  cases clockHeld with
  | false => exact iff_of_true (List.getLast?_concat ..) rfl
  | true => exact iff_of_false (mt List.mem_of_getLast? (stop_notMem_deadlineSequence_held p)) (by decide)

/-! ### The four ways of failing (R174, R175, R176) -/

theorem exec_readComplete_failed {s : State} {pulses : Nat} {image : List Byte} (hreset : s.resetHeld = false)
    (hloading : s.loading = true) (hwell : (Instr.readComplete pulses image).wellFormed = true)
    (hfail : imagePasses image = false) :
    exec (.readComplete pulses image) s = .next
      ((s.withLoader { s.loader with buffer := image }).failLoad (readSequence pulses image)) := by
  show execReadComplete pulses image s = _
  rw [execReadComplete, serveIf_true _ _ hwell, serve_high _ hreset, if_pos hloading]
  exact congrArg Host.Outcome.next (if_neg (Bool.eq_false_iff.mp hfail))

theorem exec_missingAcknowledge {s : State} {pulses : Nat} {point : AckPoint} (hreset : s.resetHeld = false)
    (hloading : s.loading = true) (hwell : (Instr.missingAcknowledge pulses point).wellFormed = true) :
    exec (.missingAcknowledge pulses point) s = .next (s.failLoad (missingAckSequence pulses point)) := by
  show execMissingAcknowledge pulses point s = _
  rw [execMissingAcknowledge, serveIf_true _ _ hwell, serve_high _ hreset, if_pos hloading]

theorem exec_stuckDataLine {s : State} (hreset : s.resetHeld = false) (hloading : s.loading = true) :
    exec .stuckDataLine s = .next (s.failLoad stuckSequence) := by
  show execStuckDataLine s = _
  rw [execStuckDataLine, serve_high _ hreset, if_pos hloading]

theorem State.opState_of_loading {s : State} (h : s.loading = true) : s.loader.opState = .loading := by
  simp only [State.loading, Bool.and_eq_true, beq_iff_eq] at h
  exact h.1

theorem exec_loadDeadline {s : State} {progress : BusProgress} {clockHeld : Bool} (hreset : s.resetHeld = false)
    (hloading : s.loading = true) (hdue : s.loader.deadline = some s.now)
    (hwell : (Instr.loadDeadline progress clockHeld).wellFormed = true) :
    exec (.loadDeadline progress clockHeld) s = .next
      ((s.withLoader { s.loader with buffer := progress.bytes }).failLoad (deadlineSequence progress clockHeld)) := by
  show execLoadDeadline progress clockHeld s = _
  rw [execLoadDeadline, serveIf_true _ _ hwell, serve_high _ hreset,
    if_pos (by simp [State.opState_of_loading hloading, hdue, reached])]

/-- What every failing load leaves, given whether its bus operations end with a stop condition. -/
theorem failLoad_entersConfigFault {s : State} {c : Instr} {buffer : List Byte} {bus : List BusOp} {stopped : Prop}
    (hexec : exec c s = .next ((s.withLoader { s.loader with buffer := buffer }).failLoad bus))
    (hbus : bus.getLast? = some .stop ↔ stopped) :
    ∃ t, exec c s = .next t
      ∧ t.loader.opState = .configFault ∧ t.loader.deadline = none ∧ t.loader.image = s.loader.image
      ∧ t.port = { s.port with flags := { s.port.flags with configFault := true } } ∧ t.attn = true
      ∧ (t.loader.bus.getLast? = some .stop ↔ stopped)
      ∧ t = { s with loader := t.loader, port := t.port } :=
  ⟨_, hexec, rfl, rfl, rfl, rfl, rfl, hbus, rfl⟩

/-- Settles O11: each way of failing is `failLoad` with its own record of the bus, which ends with a stop condition unless
the data line is stuck or the clock is held. -/
theorem failedLoadEntersConfigFault : Obligations.FailedLoadEntersConfigFault := by
  rintro s c hreset hloading hwell
    (⟨pulses, image, rfl, hfail⟩ | ⟨pulses, point, rfl⟩ | rfl | ⟨progress, held, rfl, hdue⟩)
  · exact failLoad_entersConfigFault (exec_readComplete_failed hreset hloading hwell hfail)
      (iff_of_true (readSequence_stops ..) (by simp))
  · exact failLoad_entersConfigFault (exec_missingAcknowledge hreset hloading hwell)
      (iff_of_true (missingAckSequence_stops ..) (by simp))
  · exact failLoad_entersConfigFault (exec_stuckDataLine hreset hloading)
      (iff_of_false stuckSequence_not_stopped (by simp))
  · exact failLoad_entersConfigFault (exec_loadDeadline hreset hloading hdue hwell)
      ((deadlineSequence_stops_iff ..).trans (by simp))

end Sys2Proof.Machine

/-! ## The checks on the image (R175, R176) -/

namespace Sys2Proof.Machine

/-! ### The checksum -/

theorem map_byteAt_range (bytes : List Byte) : (List.range bytes.length).map (byteAt bytes) = bytes := by
  refine List.ext_getElem (by simp) fun k _ hk => ?_
  simp [byteAt, hk]

/-- Bytes added up one by one give their sum modulo 256. -/
theorem foldl_byte_add_toNat (f : Nat → Byte) (ks : List Nat) (start : Byte) :
    (ks.foldl (fun sum k => sum + f k) start).toNat = (start.toNat + (ks.map fun k => (f k).toNat).sum) % 256 := by
  induction ks generalizing start with
  | nil => exact (Nat.mod_eq_of_lt start.isLt).symm
  | cons k ks ih =>
    rw [List.foldl_cons, ih, BitVec.toNat_add, List.map_cons, List.sum_cons, Nat.mod_add_mod, Nat.add_assoc]

theorem checksum_zero_iff {image : List Byte} (hlength : image.length = 96) :
    (List.range Config.imageSize).foldl (fun sum k => sum + byteAt image k) (0 : Byte) = 0
      ↔ (image.map BitVec.toNat).sum % 256 = 0 := by
  have hbytes : (List.range Config.imageSize).map (fun k => (byteAt image k).toNat) = image.map BitVec.toNat := by
    conv_rhs => rw [← map_byteAt_range image, hlength, List.map_map]
    rfl
  rw [← BitVec.toNat_inj, foldl_byte_add_toNat, hbytes]
  simp

/-! ### The neighbour entries -/

theorem neighbourFault_eq_false_iff (image : List Byte) (n : Nat) :
    neighbourFault image n = false ↔
      (byteAt image (4 + 4 * n) ≠ 0 →
        byteAt image (4 + 4 * n) ≠ 255 ∧ byteAt image (4 + 4 * n) ≠ byteAt image 1
          ∧ (∀ m < 8, m ≠ n → byteAt image (4 + 4 * m) ≠ byteAt image (4 + 4 * n))
          ∧ byteAt image (5 + 4 * n) ≠ 0 ∧ byteAt image (5 + 4 * n) ≠ byteAt image 2) := by
  have hchannel : 4 + 4 * n + 1 = 5 + 4 * n := by omega
  simp only [neighbourFault, neighbourBase, hchannel, Bool.and_eq_false_imp, bne_iff_ne, Bool.or_eq_false_iff,
    beq_eq_false_iff_ne, List.any_eq_false, List.mem_range, Bool.and_eq_true, beq_iff_eq, ne_eq, not_and, and_assoc]

/-! ### All the checks -/

theorem imagePasses_iff {image : List Byte} (hlength : image.length = 96) :
    imagePasses image = true ↔
      byteAt image 0 = 0x54
        ∧ (image.map BitVec.toNat).sum % 256 = 0
        ∧ byteAt image 1 ≠ 0 ∧ byteAt image 1 ≠ 255
        ∧ ∀ n < 8, byteAt image (4 + 4 * n) ≠ 0 →
            byteAt image (4 + 4 * n) ≠ 255 ∧ byteAt image (4 + 4 * n) ≠ byteAt image 1
              ∧ (∀ m < 8, m ≠ n → byteAt image (4 + 4 * m) ≠ byteAt image (4 + 4 * n))
              ∧ byteAt image (5 + 4 * n) ≠ 0 ∧ byteAt image (5 + 4 * n) ≠ byteAt image 2 := by
  simp only [imagePasses, Bool.and_eq_true, beq_iff_eq, bne_iff_ne, List.all_eq_true, List.mem_range,
    Bool.not_eq_true', checksum_zero_iff hlength, neighbourFault_eq_false_iff, and_assoc]

/-- Settles O9: READ_COMPLETE takes the image where `imagePasses` holds of it, which is R175's list of checks. -/
theorem imageChecksDecideTheLoad : Obligations.ImageChecksDecideTheLoad := by
  intro s pulses image hreset hloading hpulses hlength
  have hwell : (Instr.readComplete pulses image).wellFormed = true := by
    simp [Instr.wellFormed, hpulses, hlength, Config.imageSize]
  simp only [← imagePasses_iff hlength]
  cases hchecks : imagePasses image with
  | true => exact ⟨_, exec_readComplete hreset hloading hwell hchecks, .inl rfl, iff_of_true rfl rfl⟩
  | false =>
    exact ⟨_, exec_readComplete_failed hreset hloading hwell hchecks, .inr ⟨rfl, rfl⟩, iff_of_false nofun nofun⟩

end Sys2Proof.Machine

/-! ## Events that cannot occur (R171, R182, R184) -/

namespace Sys2Proof.Machine

/-! ### A served command without its event -/

/-- A served command changes nothing where RESET_N is low, and else where its meaning finds no event. -/
theorem serve_idle {f : State → State} {s : State} {event : Bool} (h : (!s.resetHeld && event) = false)
    (hf : event = false → f s = s) : serve f s = .next s := by
  cases hreset : s.resetHeld with
  | true => exact serve_low f hreset
  | false => exact (serve_high f hreset).trans (congrArg Host.Outcome.next (hf (by simpa [hreset] using h)))

theorem serveIf_idle {wellFormed : Bool} {f : State → State} {s : State} {event : Bool} (hwell : wellFormed = true)
    (h : (!s.resetHeld && event) = false) (hf : event = false → f s = s) : serveIf wellFormed f s = .next s :=
  (serveIf_true f s hwell).trans (serve_idle h hf)

theorem onlyIf_idle {s t : State} {event : Bool} (h : event = false) : (if event = true then t else s) = s :=
  if_neg (ne_true_of_eq_false h)

theorem event_false_of_held {α : Type} {held : Option α} {event : α → Bool} {a : α} (h : held.any event = false)
    (ha : held = some a) : event a = false := by
  rwa [ha] at h

theorem State.whenDue_idle {s : State} {i : Fin 64} {due : RosterEntry → Bool} (f : RosterEntry → State → State)
    (h : s.entryHas i due = false) : s.whenDue i due f = s := by
  unfold State.whenDue
  split
  · next e he => exact onlyIf_idle (event_false_of_held h he :)
  · rfl

/-! ### The parts of a frame (R184; log entry 18) -/

theorem State.argumentBytes_idle {s : State} {c : PortCommand} (h : s.takesPart c .arguments = false) :
    s.argumentBytes c = s := by
  unfold State.argumentBytes
  split
  · next f hframe => exact onlyIf_idle (event_false_of_held h hframe :)
  · rfl

/-- A frame on which MNT_SEL cannot rise does not wait for this command's arguments. -/
theorem State.takesPart_arguments_of_rise {s : State} {c : PortCommand} {clocked : Nat}
    (h : s.takesPart c (.rise clocked) = false) : s.takesPart c .arguments = false := by
  cases hframe : s.port.frame with
  | none => simp [State.takesPart, hframe]
  | some f =>
    simp only [State.takesPart, hframe, Option.any_some, PortCommand.risesOn, Bool.and_eq_false_iff,
      Bool.or_eq_false_iff] at h ⊢
    rcases h with hcode | ⟨hargs, -⟩
    · exact .inl (.inl hcode)
    · exact .inl (.inr hargs)

theorem State.frameEnds_idle {s : State} {c : PortCommand} {clocked : Nat}
    (h : s.takesPart c (.rise clocked) = false) : s.frameEnds c clocked = s := by
  have harrived : (if c.args.length ≤ clocked then s.argumentBytes c else s) = s := by
    rw [State.argumentBytes_idle (State.takesPart_arguments_of_rise h), ite_self]
  unfold State.frameEnds
  dsimp only
  rw [harrived]
  split
  · next f hframe => exact onlyIf_idle (event_false_of_held h hframe :)
  · rfl

theorem State.portCommand_idle {s : State} {c : PortCommand} {part : FramePart} (h : s.takesPart c part = false) :
    s.portCommand c part = s := by
  have hopen (hnone : s.port.frame.isNone = false) : s.port.frame.isSome = true := by
    rw [← Option.not_isNone, hnone]; rfl
  cases part with
  | command => exact if_pos (hopen h)
  | arguments => exact State.argumentBytes_idle h
  | rise clocked => exact State.frameEnds_idle h
  | whole clocked => exact if_pos (hopen h)

theorem serve_portCommand_idle {s : State} {c : PortCommand} {part : FramePart}
    (h : (!s.resetHeld && s.takesPart c part) = false) : serve (State.portCommand c part) s = .next s :=
  serve_idle h State.portCommand_idle

/-! ### The commands that look at more than one thing -/

theorem MarkedStamp.age_idle {now : Time} {stamp : Option MarkedStamp}
    (h : (stamp.any fun m => elapsed now m.time == Config.oldAge) = false) : stamp.map (MarkedStamp.age now) = stamp := by
  cases stamp with
  | none => rfl
  | some m => exact congrArg some (if_neg (by simpa using h))

theorem oldMark_idle {s : State} {stamp : StampName} (h : s.canOccur (.oldMark stamp) = false) :
    execOldMark stamp s = .next s := by
  cases stamp with
  | lastSent => exact serve_idle h fun hage => by rw [MarkedStamp.age_idle hage]; rfl
  | quietSince => exact serve_idle h fun hage => by rw [MarkedStamp.age_idle hage]; rfl

theorem loadDeadline_idle {s : State} {progress : BusProgress} {clockHeld : Bool}
    (hwell : (Instr.loadDeadline progress clockHeld).wellFormed = true)
    (h : s.canOccur (.loadDeadline progress clockHeld) = false) : execLoadDeadline progress clockHeld s = .next s :=
  serveIf_idle hwell ((Bool.and_assoc ..).symm.trans h) onlyIf_idle

theorem silenceDeadline_idle {s : State} {n : Fin 8} (h : s.canOccur (.silenceDeadline n) = false) :
    execSilenceDeadline n s = .next s :=
  serve_idle ((Bool.and_assoc ..).symm.trans h) onlyIf_idle

theorem answerDeadline_idle {s : State} {p : Fin 4} (h : s.canOccur (.answerDeadline p) = false) :
    execAnswerDeadline p s = .next s := by
  refine serve_idle h fun hdue => ?_
  split
  · next held hheld => exact onlyIf_idle (event_false_of_held hdue hheld :)
  · rfl

theorem leaveDeadline_idle {s : State} {p : Fin 4} (h : s.canOccur (.leaveDeadline p) = false) :
    execLeaveDeadline p s = .next s := by
  refine serve_idle h fun hdue => ?_
  split
  · next held hheld => exact onlyIf_idle (event_false_of_held hdue hheld :)
  · rfl

theorem hearingExpiry_idle {s : State} {j : Fin 128} (h : s.canOccur (.hearingExpiry j) = false) :
    execHearingExpiry j s = .next s := by
  refine serve_idle h fun hdue => ?_
  split
  · next held hheld => exact onlyIf_idle (event_false_of_held hdue hheld :)
  · rfl

/-- Only in DEFER, and there only with a quiet-since stamp, is an idle gap awaited. -/
theorem idleGapDeadline_idle {s : State} (h : s.canOccur .idleGapDeadline = false) : execIdleGapDeadline s = .next s := by
  cases hst : s.link.txState with
  | defer held =>
    have hgap : (!s.resetHeld && s.link.quietSince.any fun m => s.now == after m.time (s.par .idleGap)) = false := by
      simpa only [State.canOccur, hst] using h
    refine serve_idle hgap fun hquiet => ?_
    split
    · next m _ hm => exact onlyIf_idle (event_false_of_held hquiet hm :)
    · rfl
  | _ => simp [execIdleGapDeadline, serve, hst]

theorem spacingEnd_idle {s : State} (h : s.canOccur .spacingEnd = false) : execSpacingEnd s = .next s := by
  refine serve_idle h fun hspacing => ?_
  split
  · next deadline hst => exact if_neg fun hdue => by simp [hst, hdue] at hspacing
  · rfl

theorem dispatch_idle {s : State} (h : s.canOccur .dispatch = false) : execDispatch s = .next s := by
  refine serve_idle ((Bool.and_assoc ..).symm.trans h) fun hhead => ?_
  split
  · next hrx => exact onlyIf_idle (by simpa [hrx] using hhead)
  · rfl

theorem tick_idle {s : State} (h : s.canOccur .tick = false) : execTick s = .next s :=
  serve_low _ (by simpa [State.canOccur] using h)

theorem reportFrameStart_idle {s : State} (h : s.canOccur .reportFrameStart = false) : execReportFrameStart s = .next s :=
  serve_low _ (by simpa [State.canOccur] using h)

theorem takenStrobe_idle {s : State} (h : s.canOccur .takenStrobe = false) : execTakenStrobe s = .next s :=
  serve_idle h fun hready => congrArg s.withSteer (SteerQueue.strobe_of_not_ready hready)

theorem fetchComplete_idle {s : State} (h : s.canOccur .fetchComplete = false) : execFetchComplete s = .next s := by
  refine serve_idle h fun hfetch => ?_
  rw [Option.isSome_eq_false_iff, Option.isNone_iff_eq_none] at hfetch
  rw [hfetch]

/-! ### Every command -/

/-- Settles O3: a served command without its event is idle, and the two pins followed while RESET_N is low are idle at the
level they have. -/
theorem eventsThatCannotOccurChangeNothing : Obligations.EventsThatCannotOccurChangeNothing := by
  intro c s hwell h
  cases c with
  | hardReset => exact absurd h (by simp [State.canOccur])
  | resetRelease => exact congrArg Host.Outcome.next (onlyIf_idle h)
  | readComplete pulses image => exact serveIf_idle hwell h onlyIf_idle
  | missingAcknowledge pulses point => exact serveIf_idle hwell h onlyIf_idle
  | stuckDataLine => exact serve_idle h onlyIf_idle
  | loadDeadline progress clockHeld => exact loadDeadline_idle hwell h
  | tick => exact tick_idle h
  | oldMark stamp => exact oldMark_idle h
  | reportFrameStart => exact reportFrameStart_idle h
  | reportFrame frame => exact serveIf_idle hwell h onlyIf_idle
  | lostDeadline i => exact serve_idle h (State.whenDue_idle _)
  | callActiveDeadline i => exact serve_idle h (State.whenDue_idle _)
  | emergencyClear i => exact serve_idle h (State.whenDue_idle _)
  | guardPeriodEnd i => exact serve_idle h (State.whenDue_idle _)
  | reservationDeadline i => exact serve_idle h (State.whenDue_idle _)
  | dwellExpiry i => exact serve_idle h (State.whenDue_idle _)
  | exclusionDeadline i => exact serve_idle h (State.whenDue_idle _)
  | answerDeadline p => exact answerDeadline_idle h
  | leaveDeadline p => exact leaveDeadline_idle h
  | strayAgeDeadline j => exact serve_idle h onlyIf_idle
  | hearingPeriodExpiry => exact serve_idle h onlyIf_idle
  | silenceDeadline n => exact silenceDeadline_idle h
  | hearingExpiry j => exact hearingExpiry_idle h
  | idleGapDeadline => exact idleGapDeadline_idle h
  | backoffEnd => exact serve_idle h fun hst => if_neg (beq_eq_false_iff_ne.mp hst)
  | spacingEnd => exact spacingEnd_idle h
  | windowEnd => exact serve_idle h onlyIf_idle
  | carrierOnset => exact congrArg Host.Outcome.next (if_pos (by simpa [State.canOccur] using h))
  | carrierFall bytes => exact congrArg Host.Outcome.next (if_pos (by simpa [State.canOccur] using h))
  | dispatch => exact dispatch_idle h
  | sentReport => exact serve_idle h fun hst => if_neg (beq_eq_false_iff_ne.mp hst)
  | takenStrobe => exact takenStrobe_idle h
  | status part => exact serve_portCommand_idle h
  | peekAttention part => exact serve_portCommand_idle h
  | takeAttention part => exact serve_portCommand_idle h
  | selectTable table index part => exact serve_portCommand_idle h
  | readEntry part => exact serve_portCommand_idle h
  | fetchComplete => exact fetchComplete_idle h
  | readCounters clear part => exact serve_portCommand_idle h
  | setHold mode part => exact serve_portCommand_idle h
  | pin radio part => exact serve_portCommand_idle h
  | unpin radio part => exact serve_portCommand_idle h
  | listenOnly setting part => exact serve_portCommand_idle h
  | flush part => exact serve_portCommand_idle h
  | flushComplete => exact serve_idle h onlyIf_idle
  | reload part => exact serve_portCommand_idle h
  | unknownCommand code part => exact serveIf_idle hwell h State.portCommand_idle

end Sys2Proof.Machine

/-! ## What the other blocks do to the maintenance port: counts and flags (R187, R192) -/

namespace Sys2Proof.Machine

/-! ### Flags and counters that only grow -/

theorem Flags.within_refl (f : Flags) : f.within f := ⟨id, id, id, id, id, id⟩

theorem Flags.within_trans {f g h : Flags} (hfg : f.within g) (hgh : g.within h) : f.within h := by
  obtain ⟨a, b, c, d, e, k⟩ := hfg
  obtain ⟨a', b', c', d', e', k'⟩ := hgh
  exact ⟨a' ∘ a, b' ∘ b, c' ∘ c, d' ∘ d, e' ∘ e, k' ∘ k⟩

theorem Flags.within_raise (n : FlagName) (f : Flags) : f.within (f.raise n) := by
  cases n <;> simp [Flags.within, Flags.raise]

theorem le_saturate (c : Count16) : c.toNat ≤ (saturate c).toNat := by
  unfold saturate
  split
  · exact le_rfl
  · bv_omega

/-- Every flag set stays set and no counter falls (R187, R192). -/
structure Port.Grows (p q : Port) : Prop where
  flags : p.flags.within q.flags
  counters : ∀ n : Fin 16, p.counters[n].toNat ≤ q.counters[n].toNat

theorem Port.Grows.of_eq {p q : Port} (hflags : q.flags = p.flags) (hcounters : q.counters = p.counters) : p.Grows q :=
  ⟨hflags ▸ p.flags.within_refl, fun n => by rw [hcounters]⟩

theorem Port.Grows.trans {p q r : Port} (h : p.Grows q) (k : q.Grows r) : p.Grows r :=
  ⟨Flags.within_trans h.flags k.flags, fun n => (h.counters n).trans (k.counters n)⟩

theorem Port.Grows.bump (c : Counter) (p : Port) : p.Grows (p.bump c) where
  flags := p.flags.within_refl
  counters := fun n => by
    rw [Port.bump_counter_at]
    split
    · exact le_saturate _
    · exact le_rfl

theorem Port.Grows.raise (n : FlagName) (p : Port) : p.Grows (p.raise n) :=
  ⟨p.flags.within_raise n, fun _ => le_rfl⟩

/-! ### A change that touches the port by counts and flags alone -/

/-- What the port's work rests on stays, and flags and counters only grow: the operating state and RESET_N, BUSY with the
fetch that makes it so, the open frame and the holder (R184, R185, R187, R190, R192). -/
structure OnlyMarks (s t : State) : Prop where
  resetHeld : t.resetHeld = s.resetHeld
  opState : t.loader.opState = s.loader.opState
  busy : t.port.busy = s.port.busy
  fetch : t.port.fetch = s.port.fetch
  frame : t.port.frame = s.port.frame
  holder : t.port.holder = s.port.holder
  grows : s.port.Grows t.port

theorem OnlyMarks.of_port {s t : State} (h : t.port = s.port ∧ t.resetHeld = s.resetHeld ∧ t.loader = s.loader) :
    OnlyMarks s t := by
  obtain ⟨hport, hreset, hloader⟩ := h
  exact ⟨hreset, by rw [hloader], by rw [hport], by rw [hport], by rw [hport], by rw [hport],
    .of_eq (by rw [hport]) (by rw [hport])⟩

theorem OnlyMarks.refl (s : State) : OnlyMarks s s := .of_port ⟨rfl, rfl, rfl⟩

theorem OnlyMarks.trans {s t u : State} (h : OnlyMarks s t) (k : OnlyMarks t u) : OnlyMarks s u :=
  ⟨k.resetHeld.trans h.resetHeld, k.opState.trans h.opState, k.busy.trans h.busy, k.fetch.trans h.fetch,
    k.frame.trans h.frame, k.holder.trans h.holder, h.grows.trans k.grows⟩

theorem OnlyMarks.after {s t u : State} (k : OnlyMarks t u)
    (h : t.port = s.port ∧ t.resetHeld = s.resetHeld ∧ t.loader = s.loader) : OnlyMarks s u :=
  .trans (.of_port h) k

theorem OnlyMarks.bump (c : Counter) (s : State) : OnlyMarks s (s.bump c) :=
  ⟨rfl, rfl, rfl, rfl, rfl, rfl, .bump c s.port⟩

theorem OnlyMarks.raise (n : FlagName) (s : State) : OnlyMarks s (s.raise n) :=
  ⟨rfl, rfl, rfl, rfl, rfl, rfl, .raise n s.port⟩

theorem OnlyMarks.bumpIf (b : Bool) (c : Counter) (s : State) : OnlyMarks s (s.bumpIf b c) := by
  cases b
  · exact .refl s
  · exact .bump c s

theorem OnlyMarks.raiseIf (b : Bool) (n : FlagName) (s : State) : OnlyMarks s (s.raiseIf b n) := by
  cases b
  · exact .refl s
  · exact .raise n s

/-! ### Offers and departures -/

theorem OnlyMarks.offer (dest : Byte) (kind : FrameKind) (body : List Byte) (s : State) :
    OnlyMarks s (s.offer dest kind body) :=
  .after (.bumpIf _ _ _) (by simp)

theorem OnlyMarks.offerMove (r : Radio) (n : Fin 8) (s : State) : OnlyMarks s (s.offerMove r n) :=
  .after (.bumpIf _ _ _) (by simp)

theorem OnlyMarks.offerRefuse (r : Radio) (s : State) : OnlyMarks s (s.offerRefuse r) :=
  .after (.bumpIf _ _ _) (by simp)

theorem OnlyMarks.openDeparture (i : Fin 64) (n : Fin 8) (s : State) : OnlyMarks s (s.openDeparture i n) := by
  unfold State.openDeparture
  split
  · exact .trans (.after (.offer _ _ _ _) (by simp)) (.bump _ _)
  · exact .refl s

theorem OnlyMarks.arbiter (s : State) : OnlyMarks s s.arbiter := by
  rcases s.arbiter_cases with hsame | ⟨i, n, -, hopen, -⟩
  · rw [hsame]; exact .refl s
  · rw [hopen]; exact .openDeparture i n s

theorem OnlyMarks.revert_arbiter (d : Departure) (b : Bool) (c : Counter) (s : State) :
    OnlyMarks s ((s.revert d).bumpIf b c).arbiter :=
  .trans (.after (.bumpIf b c _) (by simp)) (.arbiter _)

theorem OnlyMarks.depart (i : Fin 64) (r : Radio) (site : Byte) (o : Departed) (s : State) :
    OnlyMarks s (s.depart i r site o) := by
  unfold State.depart
  dsimp only
  split
  · exact .after (.arbiter _) (by simp)
  · exact .of_port (by simp)

theorem OnlyMarks.leaveEnds (d : Departure) (s : State) : OnlyMarks s (s.leaveEnds d) := by
  unfold State.leaveEnds
  split
  · exact .revert_arbiter d true .steerFailed s
  · exact .depart _ _ _ _ s

theorem OnlyMarks.resendAsk (p : Fin 4) (d : Departure) (s : State) : OnlyMarks s (s.resendAsk p d) :=
  .after (.offer _ _ _ _) (by simp)

theorem OnlyMarks.dwellExpires (i : Fin 64) (e : RosterEntry) (s : State) : OnlyMarks s (s.dwellExpires i e) := by
  unfold State.dwellExpires
  dsimp only
  split
  · split
    · split
      · exact .after (.openDeparture _ _ _) (by simp)
      · exact .of_port (by simp)
    · exact .of_port (by simp)
  · exact .of_port (by simp)

/-! ### Observations -/

theorem OnlyMarks.announce_eval (i : Fin 64) (e : RosterEntry) (s : State) : OnlyMarks s ((s.announce e).evalAt i) :=
  .trans (.offer 0 .homed (homedBody e) s) (.of_port ⟨rfl, rfl, rfl⟩)

theorem OnlyMarks.refuseHoming (o : Observation) (s : State) : OnlyMarks s (s.refuseHoming o) :=
  .trans (.trans (.offerRefuse _ s) (.bump _ _)) (.raise _ _)

theorem OnlyMarks.homeOrRefuse (o : Observation) (s : State) : OnlyMarks s (s.homeOrRefuse o) := by
  unfold State.homeOrRefuse
  split
  · exact .refl s
  split
  · split
    · exact .after (.announce_eval _ _ _) (by simp)
    · exact .refuseHoming o s
  · exact .refuseHoming o s

theorem OnlyMarks.hearLeaving (i : Fin 64) (r : Radio) (o : Observation) (s : State) :
    OnlyMarks s (s.hearLeaving i r o) := by
  unfold State.hearLeaving
  dsimp only
  split
  · split
    · exact .after (.revert_arbiter _ _ _ _) (by simp)
    · exact .of_port (by simp)
  · exact .of_port (by simp)

theorem OnlyMarks.hearRostered (i : Fin 64) (e : RosterEntry) (o : Observation) (s : State) :
    OnlyMarks s (s.hearRostered i e o) := by
  unfold State.hearRostered
  split
  · exact .of_port (by simp)
  · exact .of_port (by simp)
  · exact .hearLeaving _ _ o s
  · exact .after (.announce_eval _ _ _) (by simp)

theorem OnlyMarks.deliver (o : Observation) (s : State) : OnlyMarks s (s.deliver o) := by
  unfold State.deliver
  split
  · split
    · exact .of_port (by simp)
    · exact .homeOrRefuse o s
  split
  · exact .of_port (by simp)
  split
  · exact .hearRostered _ _ o s
  · exact .refl s

theorem OnlyMarks.takeSlot (frame : List Byte) (s : State) (p : Fin 8) : OnlyMarks s (s.takeSlot frame p) := by
  have hcounted (lock : Option PathLock) (a b : Bool) :
      OnlyMarks s (((s.setLock p lock).bumpIf a .orphanBursts).bumpIf b .nonAdmitted) :=
    .trans (.after (.bumpIf a _ _) (by simp)) (.bumpIf b _ _)
  unfold State.takeSlot State.admitThenDeliver
  dsimp only
  split
  · split
    · exact (hcounted _ _ _).trans (.deliver _ _)
    · exact (hcounted _ _ _).trans (.bump _ _)
  · exact hcounted _ _ _

theorem OnlyMarks.takeFrame (frame : List Byte) (s : State) : OnlyMarks s (s.takeFrame frame) := by
  have hslots (u : State) : OnlyMarks u (u.takeSlots frame) :=
    State.takeSlots_induct (P := OnlyMarks u) frame (fun t p h => h.trans (.takeSlot frame t p)) u (.refl u)
  have hgap (u : State) : OnlyMarks u u.reportGap := .trans (.after (.bump _ _) (by simp)) (.raise _ _)
  unfold State.takeFrame
  dsimp only
  split
  · exact (hslots _).after (by simp)
  · exact (OnlyMarks.after (hgap _) (by simp)).trans (hslots _)
  · exact .refl s

/-! ### Frames from neighbours -/

theorem OnlyMarks.acceptTake (p : Fin 4) (d : Departure) (h : Nat) (s : State) : OnlyMarks s (s.acceptTake p d h) := by
  unfold State.acceptTake
  dsimp only
  split
  · exact .trans (.after (.offerMove _ _ _) (by simp)) (.leaveEnds _ _)
  · exact .after (.offerMove _ _ _) (by simp)

theorem OnlyMarks.receiveTake (f : LinkFrame) (s : State) : OnlyMarks s (s.receiveTake f) := by
  unfold State.receiveTake
  split
  · split
    · exact .acceptTake _ _ _ s
    · exact .refl s
  · exact .refl s

theorem OnlyMarks.receiveDecline (f : LinkFrame) (s : State) : OnlyMarks s (s.receiveDecline f) := by
  unfold State.receiveDecline
  split
  · split
    · exact .revert_arbiter _ true .asksDeclined s
    · exact .refl s
  · exact .refl s

theorem OnlyMarks.receiveAsk (f : LinkFrame) (s : State) : OnlyMarks s (s.receiveAsk f) := by
  unfold State.receiveAsk
  dsimp only
  split
  · exact .refl s
  · exact .offer _ _ _ s
  · exact .after (.offer _ _ _ _) (by simp)
  · exact .trans (.after (.offer _ _ _ _) (by simp)) (.bump _ _)

theorem OnlyMarks.conflict (i : Fin 64) (e : RosterEntry) (source : Byte) (c : Option (BitVec 4)) (s : State) :
    OnlyMarks s (s.conflict i e source c) := by
  unfold State.conflict
  split
  · exact .offer _ _ _ s
  · exact .depart _ _ _ _ s

theorem OnlyMarks.receiveHomed (f : LinkFrame) (s : State) : OnlyMarks s (s.receiveHomed f) := by
  unfold State.receiveHomed
  dsimp only
  split
  · exact .refl s
  split
  · exact .refl s
  split
  · exact .of_port (by simp)
  · exact .conflict _ _ _ _ s
  · exact .conflict _ _ _ _ s
  · split
    · exact .trans (.bump _ s) (.depart _ _ _ _ _)
    · exact .conflict _ _ _ _ s

theorem OnlyMarks.negotiate (f : LinkFrame) (s : State) : OnlyMarks s (s.negotiate f) := by
  unfold State.negotiate
  split
  · exact .refl s
  · exact .receiveAsk f s
  · exact .receiveTake f s
  · exact .receiveDecline f s
  · exact .receiveHomed f s

theorem OnlyMarks.dispatchNeighbour (n : Fin 8) (f : LinkFrame) (s : State) :
    OnlyMarks s (s.dispatchNeighbour n f) := by
  have heval (b : Bool) : OnlyMarks s (if b then (s.hearFrom n).evalAll else s.hearFrom n) := by
    cases b <;> exact .of_port (by simp)
  unfold State.dispatchNeighbour
  dsimp only
  split
  · exact .of_port (by simp)
  split
  · exact (heval _).trans (.negotiate f _)
  · exact heval _

theorem OnlyMarks.dispatchStranger (f : LinkFrame) (s : State) : OnlyMarks s (s.dispatchStranger f) := by
  unfold State.dispatchStranger
  split
  · exact .refl s
  split
  · exact .bump _ s
  · exact .negotiate f s

theorem OnlyMarks.dispatchFrame (f : LinkFrame) (rest : List LinkFrame) (s : State) :
    OnlyMarks s (s.dispatchFrame f rest) := by
  unfold State.dispatchFrame
  dsimp only
  split
  · exact .after (.dispatchNeighbour _ f _) (by simp)
  · exact .after (.dispatchStranger f _) (by simp)

/-! ### Notices and received frames -/

theorem OnlyMarks.composeHeard (taken : List (Fin 32)) (s : State) : OnlyMarks s (s.composeHeard taken) := by
  unfold State.composeHeard
  dsimp only
  split
  · exact .trans (.offer 0 .heard _ s) (.of_port ⟨rfl, rfl, rfl⟩)
  · exact .offer _ _ _ s

theorem OnlyMarks.composeNotice (s : State) : OnlyMarks s s.composeNotice := by
  unfold State.composeNotice
  dsimp only
  split
  · exact .refl s
  split
  · exact .composeHeard _ s
  split
  · exact .offer _ _ _ s
  · exact .refl s

theorem OnlyMarks.judgeCollected (bytes : List Byte) (s : State) : OnlyMarks s (s.judgeCollected bytes) := by
  unfold State.judgeCollected
  split
  · exact .refl s
  split
  · exact .bump _ s
  · exact .trans (.bump _ s) (.raise _ _)
  · exact .trans (.after (.bumpIf _ _ _) (by simp)) (.raiseIf _ _ _)

/-! ### The commands of the other blocks -/

/-- The commands that are neither of the maintenance port nor of reset and load. -/
def ofOtherBlock : Instr → Bool
  | .hardReset | .resetRelease | .readComplete .. | .missingAcknowledge .. | .stuckDataLine | .loadDeadline .. => false
  | .status _ | .peekAttention _ | .takeAttention _ | .selectTable .. | .readEntry _ | .fetchComplete => false
  | .readCounters .. | .setHold .. | .pin .. | .unpin .. | .listenOnly .. | .flush _ | .flushComplete | .reload _ => false
  | .unknownCommand .. => false
  | _ => true

theorem OnlyMarks.of_serve {f : State → State} {s t : State} (h : serve f s = .next t) (hf : OnlyMarks s (f s)) :
    OnlyMarks s t := by
  rcases serve_eq_next h with ⟨-, rfl⟩ | ⟨-, rfl⟩
  · exact .refl _
  · exact hf

theorem OnlyMarks.onlyIf {p : Prop} [Decidable p] {s t : State} (h : OnlyMarks s t) : OnlyMarks s (if p then t else s) := by
  split
  · exact h
  · exact .refl s

theorem OnlyMarks.whenDue {i : Fin 64} {due : RosterEntry → Bool} {f : RosterEntry → State → State} {s t : State}
    (h : serve (fun s => s.whenDue i due f) s = .next t) (hf : ∀ e, OnlyMarks s (f e s)) : OnlyMarks s t := by
  refine .of_serve h ?_
  unfold State.whenDue
  split
  · exact .onlyIf (hf _)
  · exact .refl s

theorem OnlyMarks.oldMark {stamp : StampName} {s t : State} (h : execOldMark stamp s = .next t) : OnlyMarks s t :=
  .of_serve h (by cases stamp <;> exact .of_port ⟨rfl, rfl, rfl⟩)

theorem OnlyMarks.reportFrame {frame : List Byte} {s t : State} (h : execReportFrame frame s = .next t) :
    OnlyMarks s t := by
  obtain ⟨-, h⟩ := serveIf_eq_next h
  obtain ⟨-, rfl⟩ | ⟨-, rfl⟩ := h
  · exact .refl _
  refine .onlyIf ?_
  dsimp only
  split
  · exact .after (.takeFrame frame _) (by simp)
  · exact .of_port (by simp)

theorem OnlyMarks.answerDeadline {p : Fin 4} {s t : State} (h : execAnswerDeadline p s = .next t) : OnlyMarks s t := by
  refine .of_serve h ?_
  split
  · refine .onlyIf ?_
    split
    · exact .resendAsk p _ s
    · exact .revert_arbiter _ true .asksTimedOut s
  · exact .refl s

theorem OnlyMarks.leaveDeadline {p : Fin 4} {s t : State} (h : execLeaveDeadline p s = .next t) : OnlyMarks s t := by
  refine .of_serve h ?_
  split
  · exact .onlyIf (.leaveEnds _ s)
  · exact .refl s

theorem OnlyMarks.hearingExpiry {j : Fin 128} {s t : State} (h : execHearingExpiry j s = .next t) : OnlyMarks s t := by
  refine .of_serve h ?_
  split
  · exact .onlyIf (.of_port (by simp))
  · exact .refl s

theorem OnlyMarks.idleGapDeadline {s t : State} (h : execIdleGapDeadline s = .next t) : OnlyMarks s t := by
  refine .of_serve h ?_
  split
  · exact .onlyIf (.of_port (by simp))
  · exact .refl s

theorem OnlyMarks.spacingEnd {s t : State} (h : execSpacingEnd s = .next t) : OnlyMarks s t := by
  refine .of_serve h ?_
  split
  · exact .onlyIf (.of_port (by simp))
  · exact .refl s

theorem OnlyMarks.carrierOnset {s t : State} (h : execCarrierOnset s = .next t) : OnlyMarks s t := by
  cases h
  split
  · exact .refl s
  split <;> exact .of_port (by simp)

theorem OnlyMarks.carrierFall {bytes : List Byte} {s t : State} (h : execCarrierFall bytes s = .next t) :
    OnlyMarks s t := by
  cases h
  split
  · exact .refl s
  split
  · exact .of_port (by simp)
  dsimp only
  split
  · exact .after (.judgeCollected bytes _) (by simp)
  · exact .of_port (by simp)

theorem OnlyMarks.dispatch {s t : State} (h : execDispatch s = .next t) : OnlyMarks s t := by
  refine .of_serve h ?_
  split
  · exact .onlyIf (.dispatchFrame _ _ s)
  · exact .refl s

theorem OnlyMarks.lostDeadline {i : Fin 64} {s t : State} (h : execLostDeadline i s = .next t) : OnlyMarks s t :=
  .whenDue h fun _ => .after (.bump _ _) (by simp)

theorem OnlyMarks.reservationDeadline {i : Fin 64} {s t : State} (h : execReservationDeadline i s = .next t) :
    OnlyMarks s t :=
  .whenDue h fun _ => .after (.bump _ _) (by simp)

/-- The commands of the other blocks touch the port by counts and flags alone. -/
theorem exec_onlyMarks {c : Instr} {s t : State} (h : exec c s = .next t) (hother : ofOtherBlock c = true) :
    OnlyMarks s t := by
  cases c with
  | tick => exact .of_serve (f := fun s => (s.withNow (s.now + 1)).withLink s.link.countDown) h (.of_port (by simp))
  | oldMark stamp => exact .oldMark h
  | reportFrameStart =>
    exact .of_serve (f := fun s => s.withIntake { s.intake with collecting := true }) h (.of_port (by simp))
  | reportFrame frame => exact .reportFrame h
  | lostDeadline i => exact .lostDeadline h
  | callActiveDeadline i => exact .whenDue h fun _ => .of_port (by simp)
  | emergencyClear i => exact .whenDue h fun _ => .of_port (by simp)
  | guardPeriodEnd i => exact .whenDue h fun _ => .of_port (by simp)
  | reservationDeadline i => exact .reservationDeadline h
  | dwellExpiry i => exact .whenDue h fun e => .dwellExpires i e s
  | exclusionDeadline i => exact .whenDue h fun _ => .of_port (by simp)
  | answerDeadline p => exact .answerDeadline h
  | leaveDeadline p => exact .leaveDeadline h
  | strayAgeDeadline j => exact .of_serve h (.onlyIf (.of_port (by simp)))
  | hearingPeriodExpiry => exact .of_serve h (.onlyIf (.after (.composeNotice _) (by simp)))
  | silenceDeadline n => exact .of_serve h (.onlyIf (.of_port (by simp)))
  | hearingExpiry j => exact .hearingExpiry h
  | idleGapDeadline => exact .idleGapDeadline h
  | backoffEnd => exact .of_serve h (.onlyIf (.of_port (by simp)))
  | spacingEnd => exact .spacingEnd h
  | windowEnd => exact .of_serve h (.onlyIf (.of_port (by simp)))
  | carrierOnset => exact .carrierOnset h
  | carrierFall bytes => exact .carrierFall h
  | dispatch => exact .dispatch h
  | sentReport => exact .of_serve h (.onlyIf (.of_port (by simp)))
  | takenStrobe => exact .of_serve (f := fun s => s.withSteer s.steer.strobe) h (.of_port (by simp))
  | _ => cases hother

end Sys2Proof.Machine

/-! ## The port BUSY while it works, its flags and its counters (R185, R187, R190 to R192, R196, R197) -/

namespace Sys2Proof.Machine

/-! ### Shapes of a meaning -/

/-- What holds of a state and of what a served command makes of it, holds after the command (R171). -/
theorem serve_induct {P : State → Prop} {f : State → State} {s t : State} (h : serve f s = .next t) (hs : P s)
    (hf : s.resetHeld = false → P (f s)) : P t := by
  rcases serve_eq_next h with ⟨-, rfl⟩ | ⟨hhigh, rfl⟩
  · exact hs
  · exact hf hhigh

theorem serveIf_induct {P : State → Prop} {b : Bool} {f : State → State} {s t : State} (h : serveIf b f s = .next t)
    (hs : P s) (hf : s.resetHeld = false → P (f s)) : P t := by
  obtain ⟨rfl, -⟩ := serveIf_eq_next h
  exact serve_induct h hs hf

/-! ### Flags and counters under the effects of the maintenance commands -/

/-- A load that succeeds sets no more of the port than listen-only (R178, R179). -/
theorem succeedLoad_grows (image : List Byte) (s : State) : s.port.Grows (s.succeedLoad image).port := .of_eq rfl rfl

theorem failLoad_grows (bus : List BusOp) (s : State) : s.port.Grows (s.failLoad bus).port := .raise .configFault s.port

theorem dropCommand_grows (s : State) : s.port.Grows s.dropCommand.port := .raise .cmdDropped s.port

theorem selectEffect_grows (table index : Byte) (shown : List Byte) (s : State) :
    s.port.Grows ((selectCommand table index).effect shown s).port := by
  simp only [selectCommand]
  split
  · exact .of_eq rfl rfl
  · exact dropCommand_grows s

theorem holdEffect_grows (mode : Byte) (shown : List Byte) (s : State) :
    s.port.Grows ((holdCommand mode).effect shown s).port := by
  simp only [holdCommand, State.setHoldMode]
  split
  · split <;> exact .of_eq rfl rfl
  · exact dropCommand_grows s

theorem OnlyMarks.pinRadio (r : Radio) (s : State) : OnlyMarks s (s.pinRadio r) := by
  unfold State.pinRadio
  split
  · exact .refl s
  split
  · exact .raise .cmdDropped s
  · exact .of_port ⟨rfl, rfl, rfl⟩

theorem OnlyMarks.unpinRadio (r : Radio) (s : State) : OnlyMarks s (s.unpinRadio r) := by
  unfold State.unpinRadio
  split
  · exact .of_port ⟨rfl, rfl, rfl⟩
  · exact .refl s

theorem listenEffect_grows (setting : Byte) (shown : List Byte) (s : State) :
    s.port.Grows ((listenCommand setting).effect shown s).port := by
  simp only [listenCommand, State.setListenOnly]
  split
  · split
    · split <;> exact .of_eq rfl rfl
    · exact dropCommand_grows s
  · exact dropCommand_grows s

theorem flushEffect_grows (shown : List Byte) (s : State) : s.port.Grows (flushCommand.effect shown s).port := by
  simp only [flushCommand]
  split
  · exact .of_eq rfl rfl
  · exact dropCommand_grows s

theorem reloadEffect_grows (shown : List Byte) (s : State) : s.port.Grows (reloadCommand.effect shown s).port := by
  simp only [reloadCommand]
  split
  · exact .of_eq rfl rfl
  · exact dropCommand_grows s

/-! ### Flags and counters under every command -/

theorem State.portCommand_grows (c : PortCommand) (part : FramePart) (s : State)
    (heff : ∀ (shown : List Byte) (u : State), u.port.Grows (c.effect shown u).port) :
    s.port.Grows (s.portCommand c part).port := by
  refine State.portCommand_induct (P := fun t => s.port.Grows t.port) c part ?_ ?_ ?_ ?_ s (.of_eq rfl rfl)
  · exact fun t f h => h.trans (.of_eq rfl rfl)
  · exact fun t m h => h.trans (.of_eq rfl rfl)
  · exact fun t h => h.trans (.raise _ _)
  · exact fun shown t h => h.trans (heff shown t)

theorem grows_of_serve {f : State → State} {s t : State} (h : serve f s = .next t) (hf : s.port.Grows (f s).port) :
    s.port.Grows t.port :=
  serve_induct (P := fun t => s.port.Grows t.port) h (.of_eq rfl rfl) fun _ => hf

theorem grows_of_serveIf {b : Bool} {f : State → State} {s t : State} (h : serveIf b f s = .next t)
    (hf : s.port.Grows (f s).port) : s.port.Grows t.port :=
  serveIf_induct (P := fun t => s.port.Grows t.port) h (.of_eq rfl rfl) fun _ => hf

theorem grows_onlyIf {p : Prop} [Decidable p] {s t : State} (h : s.port.Grows t.port) :
    s.port.Grows (if p then t else s).port := by
  split
  · exact h
  · exact .of_eq rfl rfl

theorem grows_of_portCommand {c : PortCommand} {part : FramePart} {s t : State}
    (h : serve (State.portCommand c part) s = .next t)
    (heff : ∀ (shown : List Byte) (u : State), u.port.Grows (c.effect shown u).port) : s.port.Grows t.port :=
  grows_of_serve h (s.portCommand_grows c part heff)

theorem readComplete_grows {pulses : Nat} {image : List Byte} {s t : State}
    (h : execReadComplete pulses image s = .next t) : s.port.Grows t.port := by
  refine grows_of_serveIf h (grows_onlyIf ?_)
  dsimp only
  split
  · exact succeedLoad_grows image _
  · exact .raise .configFault s.port

theorem fetchComplete_grows {s t : State} (h : execFetchComplete s = .next t) : s.port.Grows t.port := by
  refine grows_of_serve h ?_
  split <;> exact .of_eq rfl rfl

/-- Apart from HARD_RESET, TAKE ATTENTION and READ COUNTERS no command clears a flag or lowers a counter (R187, R192). -/
theorem exec_grows {c : Instr} {s t : State} (h : exec c s = .next t) (hreset : c ≠ .hardReset)
    (htake : ∀ part, c ≠ .takeAttention part) (hread : ∀ clear part, c ≠ .readCounters clear part) :
    s.port.Grows t.port := by
  cases c with
  | hardReset => exact absurd rfl hreset
  | resetRelease => cases h; exact grows_onlyIf (.of_eq rfl rfl)
  | readComplete pulses image => exact readComplete_grows h
  | missingAcknowledge pulses point => exact grows_of_serveIf h (grows_onlyIf (failLoad_grows _ s))
  | stuckDataLine => exact grows_of_serve h (grows_onlyIf (failLoad_grows _ s))
  | loadDeadline progress clockHeld => exact grows_of_serveIf h (grows_onlyIf (.raise .configFault s.port))
  | status part => exact grows_of_portCommand h fun _ _ => .of_eq rfl rfl
  | peekAttention part => exact grows_of_portCommand h fun _ _ => .of_eq rfl rfl
  | takeAttention part => exact absurd rfl (htake part)
  | selectTable table index part => exact grows_of_portCommand h (selectEffect_grows table index)
  | readEntry part => exact grows_of_portCommand h fun _ _ => .of_eq rfl rfl
  | fetchComplete => exact fetchComplete_grows h
  | readCounters clear part => exact absurd rfl (hread clear part)
  | setHold mode part => exact grows_of_portCommand h (holdEffect_grows mode)
  | pin radio part => exact grows_of_portCommand h fun _ u => (OnlyMarks.pinRadio radio u).grows
  | unpin radio part => exact grows_of_portCommand h fun _ u => (OnlyMarks.unpinRadio radio u).grows
  | listenOnly setting part => exact grows_of_portCommand h (listenEffect_grows setting)
  | flush part => exact grows_of_portCommand h flushEffect_grows
  | flushComplete => exact grows_of_serve h (grows_onlyIf (.of_eq rfl rfl))
  | reload part => exact grows_of_portCommand h reloadEffect_grows
  | unknownCommand code part =>
    exact grows_of_serveIf h (s.portCommand_grows (unknownPortCommand code) part fun _ _ => .of_eq rfl rfl)
  | _ => exact (exec_onlyMarks h rfl).grows

/-- READ COUNTERS clears no flag: its effect leaves them, and a dropped frame sets one. -/
theorem readCounters_flags {clear : Byte} {part : FramePart} {s t : State}
    (h : execReadCounters clear part s = .next t) : s.port.flags.within t.port.flags := by
  refine serve_induct (P := fun t => s.port.flags.within t.port.flags) h (Flags.within_refl _) fun _ =>
    State.portCommand_induct (P := fun t => s.port.flags.within t.port.flags) _ part (fun _ _ hw => hw) (fun _ _ hw => hw)
      (fun t hw => Flags.within_trans hw (t.port.flags.within_raise _)) (fun shown t hw => ?_) s (Flags.within_refl _)
  simp only [countersCommand]
  split <;> exact hw

/-- TAKE ATTENTION changes no counter. -/
theorem takeAttention_counters {part : FramePart} {s t : State} (h : execTakeAttention part s = .next t) :
    t.port.counters = s.port.counters :=
  serve_induct (P := fun t => t.port.counters = s.port.counters) h rfl fun _ =>
    State.portCommand_keeps (fun t => t.port.counters) _ part (fun _ _ _ _ => rfl) (fun _ _ => rfl) s

theorem Flags.attn_iff (f : Flags) :
    f.attn = true ↔
      f.configFault = true ∨ f.rxOverflow = true ∨ f.reportGap = true ∨ f.rosterFull = true ∨ f.siteClash = true
        ∨ f.cmdDropped = true := by
  simp [Flags.attn, or_assoc]

/-- Settles O5: READ COUNTERS leaves the flags, every other command lets them grow; ATTN is their disjunction. -/
theorem flagsStayUntilTaken : Obligations.FlagsStayUntilTaken := by
  refine ⟨fun c s t h hreset htake => ?_, fun s => s.port.flags.attn_iff⟩
  by_cases hread : ∃ clear part, c = .readCounters clear part
  · obtain ⟨clear, part, rfl⟩ := hread
    exact readCounters_flags h
  · exact (exec_grows h hreset htake fun clear part hc => hread ⟨clear, part, hc⟩).flags

/-- Settles O6: TAKE ATTENTION leaves the counters, every other command lets them grow. -/
theorem countersNeverWrap : Obligations.CountersNeverWrap := by
  intro c s t h hreset hread n
  by_cases htake : ∃ part, c = .takeAttention part
  · obtain ⟨part, rfl⟩ := htake
    rw [takeAttention_counters h]
  · exact (exec_grows h hreset (fun part hc => htake ⟨part, hc⟩) hread).counters n

/-! ### The law of the port -/

/-- What the law reads stays, and the part is in FLUSHING as before. -/
theorem PortLaw.of_same {s t : State} (h : PortLaw s) (hreset : ResetLaw t)
    (hflush : t.loader.opState = .flushing ↔ s.loader.opState = .flushing)
    (hport : t.port.busy = s.port.busy ∧ t.port.fetch = s.port.fetch ∧ t.port.frame = s.port.frame
      ∧ t.port.holder = s.port.holder) : PortLaw t := by
  obtain ⟨hbusy, hfetch, hframe, hholder⟩ := hport
  exact
    { reset := hreset
      busy := by rw [hbusy, hfetch, hflush]; exact h.busy
      notBoth := by rw [hfetch, hflush]; exact h.notBoth
      frame := by rw [hframe, hbusy]; exact h.frame
      holder := by rw [hholder]; exact h.holder }

theorem OnlyMarks.portLaw {s t : State} (h : OnlyMarks s t) (hs : PortLaw s) : PortLaw t :=
  hs.of_same (fun hr => by simpa [State.loaded, h.opState] using hs.reset (h.resetHeld ▸ hr)) (by rw [h.opState])
    ⟨h.busy, h.fetch, h.frame, h.holder⟩

theorem PortLaw.dropCommand {s : State} (h : PortLaw s) : PortLaw s.dropCommand := (OnlyMarks.raise .cmdDropped s).portLaw h

/-- A load begins, fails or succeeds outside FLUSHING, and the part is then not FLUSHING either (R171). -/
theorem PortLaw.of_load {s t : State} (h : PortLaw s) (hreset : t.resetHeld = false)
    (hs : s.loader.opState ≠ .flushing) (ht : t.loader.opState ≠ .flushing)
    (hport : t.port.busy = s.port.busy ∧ t.port.fetch = s.port.fetch ∧ t.port.frame = s.port.frame
      ∧ t.port.holder = s.port.holder) : PortLaw t :=
  h.of_same (fun hr => absurd hr (by simp [hreset])) ⟨fun hf => absurd hf ht, fun hf => absurd hf hs⟩ hport

/-! ### The parts of a frame keep the law (R184, R185) -/

/-- A frame opens unrefused on a BUSY port for STATUS alone (R185). -/
theorem PortLaw.commandByte {s : State} (h : PortLaw s) (c : PortCommand) : PortLaw (s.commandByte c) := by
  unfold State.commandByte
  split
  · exact h
  refine { h with frame := fun f hf hrefused hcode => ?_ }
  obtain rfl := Option.some.inj hf
  by_contra hbusy
  simp_all [PortCommand.refusedIn]

theorem PortLaw.argumentBytes {s : State} (h : PortLaw s) (c : PortCommand) : PortLaw (s.argumentBytes c) := by
  unfold State.argumentBytes
  split
  case h_2 => exact h
  case h_1 f hopen =>
    split
    · refine { h with frame := fun g hg hrefused hcode => ?_ }
      obtain rfl := Option.some.inj hg
      exact h.frame f hopen hrefused hcode
    · exact h

/-- The effect of the command keeps the law where no frame is open and, for any command but STATUS, the port is READY. -/
def PortCommand.KeepsPortLaw (c : PortCommand) : Prop :=
  ∀ (shown : List Byte) (u : State), PortLaw u → u.port.frame = none → (c.code ≠ statusCode → u.port.busy = false) →
    PortLaw (c.effect shown u)

theorem PortLaw.frameEnds {s : State} {c : PortCommand} (h : PortLaw s) (heff : c.KeepsPortLaw) (clocked : Nat) :
    PortLaw (s.frameEnds c clocked) := by
  have harrived : PortLaw (if c.args.length ≤ clocked then s.argumentBytes c else s) := by
    split
    · exact h.argumentBytes c
    · exact h
  unfold State.frameEnds
  dsimp only
  split
  case h_2 => exact h
  case h_1 f hopen =>
    split
    case isFalse => exact h
    case isTrue hrises =>
      have hcode : f.code = c.code := by simp_all [PortCommand.risesOn]
      have hended (m : List Byte) (arrived : State) (ha : PortLaw arrived) :
          PortLaw (arrived.withPort { arrived.port with frame := none, mntDo := m }) := { ha with frame := nofun }
      split
      · next hserved =>
        have hrefused : f.refused = false := by simp_all
        exact heff _ _ (hended _ _ harrived) rfl fun hc => harrived.frame f hopen hrefused (hcode ▸ hc)
      · exact (hended _ _ harrived).dropCommand

theorem PortLaw.portCommand {s : State} {c : PortCommand} (h : PortLaw s) (heff : c.KeepsPortLaw) (part : FramePart) :
    PortLaw (s.portCommand c part) := by
  cases part with
  | command => exact h.commandByte c
  | arguments => exact h.argumentBytes c
  | rise clocked => exact h.frameEnds heff clocked
  | whole clocked =>
    show PortLaw (s.wholeFrame c clocked)
    unfold State.wholeFrame
    split
    · exact h
    · exact (h.commandByte c).frameEnds heff clocked

/-! ### The effects of the maintenance commands keep the law -/

theorem takeCommand_keepsPortLaw : takeCommand.KeepsPortLaw := fun _ _ h _ _ => { h with }

theorem selectCommand_keepsPortLaw (table index : Byte) : (selectCommand table index).KeepsPortLaw := by
  intro shown u h _ _
  simp only [selectCommand]
  split
  · exact { h with }
  · exact h.dropCommand

/-- READ ENTRY, READY before it, is BUSY with its fetch, and no flush runs (R190). -/
theorem readCommand_keepsPortLaw : readCommand.KeepsPortLaw := by
  intro shown u h hframe hready
  have hidle : ¬(u.port.fetch.isSome = true ∨ u.loader.opState = .flushing) :=
    mt h.busy.mpr (by simp [hready (by decide)])
  exact
    { reset := h.reset
      busy := ⟨fun _ => .inl rfl, fun _ => rfl⟩
      notBoth := fun hboth => hidle (.inr hboth.2)
      frame := fun f hf => absurd (hframe.symm.trans hf) nofun
      holder := h.holder }

theorem countersCommand_keepsPortLaw (clear : Byte) : (countersCommand clear).KeepsPortLaw := by
  intro shown u h _ _
  simp only [countersCommand]
  split
  · exact h
  · exact { h with }

theorem holdCommand_keepsPortLaw (mode : Byte) : (holdCommand mode).KeepsPortLaw := by
  intro shown u h _ _
  simp only [holdCommand, State.setHoldMode]
  split
  · split
    · exact h
    · exact { h with }
  · exact h.dropCommand

theorem listenCommand_keepsPortLaw (setting : Byte) : (listenCommand setting).KeepsPortLaw := by
  intro shown u h _ _
  simp only [listenCommand, State.setListenOnly]
  split
  · split
    · split
      · exact h
      · exact { h with }
    · exact h.dropCommand
  · exact h.dropCommand

/-- FLUSH, READY before it, is BUSY with the flush, and no fetch is in flight (R196). -/
theorem flushCommand_keepsPortLaw : flushCommand.KeepsPortLaw := by
  intro shown u h hframe hready
  simp only [flushCommand]
  split
  · next hrunning =>
    have hidle : ¬(u.port.fetch.isSome = true ∨ u.loader.opState = .flushing) :=
      mt h.busy.mpr (by simp [hready (by decide)])
    exact
      { reset := fun hr => by
          have hloaded := h.reset hr
          simp_all [State.loaded, State.running]
        busy := ⟨fun _ => .inr rfl, fun _ => rfl⟩
        notBoth := fun hboth => hidle (.inl hboth.1)
        frame := fun f hf => absurd (hframe.symm.trans hf) nofun
        holder := h.holder }
  · exact h.dropCommand

theorem reloadCommand_keepsPortLaw : reloadCommand.KeepsPortLaw := by
  intro shown u h _ _
  simp only [reloadCommand]
  split
  · next hfault =>
    have hfault : u.loader.opState = .configFault := by simpa using hfault
    exact h.of_same (fun _ => rfl) (by simp [State.beginLoad, hfault]) ⟨rfl, rfl, rfl, rfl⟩
  · exact h.dropCommand

/-! ### Records are 40 bytes long (R191) -/

@[simp] theorem padRecord_length (bytes : List Byte) : (padRecord bytes).length = Config.recordSize := by
  simp [padRecord]

@[simp] theorem tableRecord_length (t : Fin 8) (i : Nat) (held : Option (List Byte)) :
    (tableRecord t i held).length = Config.recordSize := by
  unfold tableRecord
  split <;> exact padRecord_length _

@[simp] theorem State.fetched_length (x : Fetch) (s : State) : (s.fetched x).length = Config.recordSize := by
  unfold State.fetched
  split
  · unfold State.tableEntry
    dsimp only
    split
    · split <;> exact padRecord_length _
    all_goals exact tableRecord_length _ _ _
  · exact padRecord_length _

/-! ### Every command keeps the law -/

theorem PortLaw.resetRelease {s t : State} (hs : PortLaw s) (h : execResetRelease s = .next t) : PortLaw t := by
  cases h
  split
  · next hheld =>
    have hunloaded := hs.reset hheld
    exact hs.of_load rfl (fun hf => by simp [State.loaded, hf] at hunloaded) nofun ⟨rfl, rfl, rfl, rfl⟩
  · exact hs

theorem PortLaw.failLoad {s : State} (hs : PortLaw s) (hhigh : s.resetHeld = false) (hloading : s.loading = true)
    (bus : List BusOp) : PortLaw (s.failLoad bus) :=
  hs.of_load hhigh (fun hf => by simp [State.loading, hf] at hloading) nofun ⟨rfl, rfl, rfl, rfl⟩

theorem PortLaw.readComplete {pulses : Nat} {image : List Byte} {s t : State} (hs : PortLaw s)
    (h : execReadComplete pulses image s = .next t) : PortLaw t := by
  refine serveIf_induct h hs fun hhigh => ?_
  split
  · next hloading =>
    have hop : s.loader.opState ≠ .flushing := fun hf => by simp [State.loading, hf] at hloading
    dsimp only
    split
    · exact hs.of_load hhigh hop (by simp [State.succeedLoad]) ⟨rfl, rfl, rfl, rfl⟩
    · exact hs.of_load hhigh hop (by simp [State.failLoad, State.raise]) ⟨rfl, rfl, rfl, rfl⟩
  · exact hs

theorem PortLaw.loadDeadline {progress : BusProgress} {clockHeld : Bool} {s t : State} (hs : PortLaw s)
    (h : execLoadDeadline progress clockHeld s = .next t) : PortLaw t := by
  refine serveIf_induct h hs fun hhigh => ?_
  split
  · next hdue => exact hs.of_load hhigh (fun hf => by simp [hf] at hdue) nofun ⟨rfl, rfl, rfl, rfl⟩
  · exact hs

theorem PortLaw.missingAcknowledge {pulses : Nat} {point : AckPoint} {s t : State} (hs : PortLaw s)
    (h : execMissingAcknowledge pulses point s = .next t) : PortLaw t := by
  refine serveIf_induct h hs fun hhigh => ?_
  split
  · next hloading => exact hs.failLoad hhigh hloading _
  · exact hs

theorem PortLaw.stuckDataLine {s t : State} (hs : PortLaw s) (h : execStuckDataLine s = .next t) : PortLaw t := by
  refine serve_induct h hs fun hhigh => ?_
  split
  · next hloading => exact hs.failLoad hhigh hloading _
  · exact hs

/-- With its fetch complete the port is READY, for no flush ran beside it (R190). -/
theorem PortLaw.fetchComplete {s t : State} (hs : PortLaw s) (h : execFetchComplete s = .next t) : PortLaw t := by
  refine serve_induct h hs fun _ => ?_
  split
  · next x hfetch =>
    have hnoflush : s.loader.opState ≠ .flushing := fun hf => hs.notBoth ⟨by simp [hfetch], hf⟩
    exact
      { reset := hs.reset
        busy := ⟨nofun, fun hwork => hwork.elim nofun fun hf => absurd hf hnoflush⟩
        notBoth := fun hboth => hnoflush hboth.2
        frame := fun _ _ _ _ => rfl
        holder := s.fetched_length x }
  · exact hs

/-- With its flush complete the port is READY, for no fetch was in flight beside it (R197). -/
theorem PortLaw.flushComplete {s t : State} (hs : PortLaw s) (h : execFlushComplete s = .next t) : PortLaw t := by
  refine serve_induct h hs fun hhigh => ?_
  split
  · next hflushing =>
    have hnofetch : ¬s.port.fetch.isSome = true := fun hfetch => hs.notBoth ⟨hfetch, by simpa using hflushing⟩
    exact
      { reset := fun hr => absurd hr (by simp [hhigh])
        busy := ⟨nofun, fun hwork => hwork.elim (absurd · hnofetch) nofun⟩
        notBoth := fun hboth => hnofetch hboth.1
        frame := fun _ _ _ _ => rfl
        holder := hs.holder }
  · exact hs

theorem PortLaw.of_portCommand {c : PortCommand} {part : FramePart} {s t : State} (hs : PortLaw s)
    (h : serve (State.portCommand c part) s = .next t) (heff : c.KeepsPortLaw) : PortLaw t :=
  serve_induct h hs fun _ => hs.portCommand heff part

theorem exec_keepsPortLaw {c : Instr} {s t : State} (h : exec c s = .next t) (hs : PortLaw s) : PortLaw t := by
  cases c with
  | hardReset =>
    cases h
    exact reset_portLaw.of_same (fun _ => rfl) Iff.rfl ⟨rfl, rfl, rfl, rfl⟩
  | resetRelease => exact hs.resetRelease h
  | readComplete pulses image => exact hs.readComplete h
  | missingAcknowledge pulses point => exact hs.missingAcknowledge h
  | stuckDataLine => exact hs.stuckDataLine h
  | loadDeadline progress clockHeld => exact hs.loadDeadline h
  | status part => exact hs.of_portCommand h fun _ _ hu _ _ => hu
  | peekAttention part => exact hs.of_portCommand h fun _ _ hu _ _ => hu
  | takeAttention part => exact hs.of_portCommand h takeCommand_keepsPortLaw
  | selectTable table index part => exact hs.of_portCommand h (selectCommand_keepsPortLaw table index)
  | readEntry part => exact hs.of_portCommand h readCommand_keepsPortLaw
  | fetchComplete => exact hs.fetchComplete h
  | readCounters clear part => exact hs.of_portCommand h (countersCommand_keepsPortLaw clear)
  | setHold mode part => exact hs.of_portCommand h (holdCommand_keepsPortLaw mode)
  | pin radio part => exact hs.of_portCommand h fun _ u hu _ _ => (OnlyMarks.pinRadio radio u).portLaw hu
  | unpin radio part => exact hs.of_portCommand h fun _ u hu _ _ => (OnlyMarks.unpinRadio radio u).portLaw hu
  | listenOnly setting part => exact hs.of_portCommand h (listenCommand_keepsPortLaw setting)
  | flush part => exact hs.of_portCommand h flushCommand_keepsPortLaw
  | flushComplete => exact hs.flushComplete h
  | reload part => exact hs.of_portCommand h reloadCommand_keepsPortLaw
  | unknownCommand code part =>
    exact serveIf_induct h hs fun _ => hs.portCommand (c := unknownPortCommand code) (fun _ _ hu _ _ => hu) part
  | _ => exact (exec_onlyMarks h rfl).portLaw hs

/-- Settles O59: the other blocks leave what the port's work rests on, the load stays outside FLUSHING, and only READ ENTRY
and FLUSH, which find the port READY, begin work. -/
theorem everyStepKeepsThePortLaw : Obligations.EveryStepKeepsThePortLaw := by
  intro s t h hs
  unfold step at h
  split at h
  · cases h; exact hs
  · exact exec_keepsPortLaw h { hs with }

end Sys2Proof.Machine

/-! ## Maintenance frames: their replies, their ends, and what they are refused for (R184 to R188, R192) -/

namespace Sys2Proof.Machine

/-! ### What is shifted out -/

/-- A reply that the frame is long enough for stands whole between the 0x00 of the command's bytes and those after it. -/
theorem shiftedOut_reply {a n : Nat} {reply : List Byte} (h : a + reply.length ≤ n) :
    shiftedOut a n reply = List.replicate (1 + a) 0x00 ++ reply ++ List.replicate (n - a - reply.length) 0x00 := by
  have hlength : (List.replicate (1 + a) (0x00 : Byte) ++ reply).length = 1 + a + reply.length := by simp
  rw [shiftedOut, List.take_append, List.take_of_length_le (by omega), hlength, List.take_replicate]
  congr 2
  omega

/-- Each bit of the byte of PEEK ATTENTION is its flag (R187). -/
theorem Flags.toByte_bits (f : Flags) :
    f.toByte.getLsbD 0 = f.configFault ∧ f.toByte.getLsbD 1 = f.rxOverflow ∧ f.toByte.getLsbD 2 = f.reportGap
      ∧ f.toByte.getLsbD 3 = f.rosterFull ∧ f.toByte.getLsbD 4 = f.siteClash ∧ f.toByte.getLsbD 5 = f.cmdDropped
      ∧ f.toByte.getLsbD 6 = false ∧ f.toByte.getLsbD 7 = false := by
  obtain ⟨a, b, c, d, e, g⟩ := f
  revert a b c d e g
  decide

/-- Settles O47: both replies are formed on the state as it stands, and neither command has an effect. -/
theorem statusAndPeekShowAndChangeNothing : Obligations.StatusAndPeekShowAndChangeNothing := by
  refine fun s n hhigh hframe => ⟨fun hn => ?_, fun hbusy hn => ⟨s.port.flags.toByte, ?_, s.port.flags.toByte_bits⟩⟩
  · have hserved := State.whole_served (c := statusCommand) hframe (by simp [PortCommand.refusedIn, statusCommand])
      (by simpa [statusCommand] using hn) fun _ => rfl
    refine (serve_high _ hhigh).trans (congrArg Host.Outcome.next (hserved.trans ?_))
    rw [shiftedOut_reply (a := statusCommand.args.length) (reply := statusCommand.reply s)
      (by simpa [statusCommand, State.statusReply] using hn)]
    cases hwindow : s.link.window <;> simp only [statusCommand, State.statusReply, hwindow] <;> rfl
  · have hserved := State.whole_ready (c := peekCommand) hframe hbusy rfl (by simpa [peekCommand] using hn) fun _ => rfl
    refine (serve_high _ hhigh).trans (congrArg Host.Outcome.next (hserved.trans ?_))
    rw [shiftedOut_reply (a := peekCommand.args.length) (reply := peekCommand.reply s) (by simpa [peekCommand] using hn)]
    rfl

/-! ### A frame taken in its parts (R184, R188, R192) -/

/-- On a READY port a command of the table opens its frame, the reply formed at once where it has no arguments. -/
theorem State.commandByte_ready {s : State} {c : PortCommand} (hframe : s.port.frame = none) (hbusy : s.port.busy = false)
    (htable : c.inTable = true) :
    s.commandByte c =
      s.withPort
        { s.port with
          frame :=
            some
              { code := c.code
                args := if c.args.isEmpty then some [] else none
                refused := false
                reply := if c.args.isEmpty then some (c.reply s) else none } } := by
  simp [State.commandByte, hframe, PortCommand.refusedIn, htable, hbusy, PortCommand.replyUnless]

/-- The last argument byte arrives in a frame that waits for it and is not refused: the reply is formed. -/
theorem State.argumentBytes_waiting {s : State} {c : PortCommand} (hargs : c.args ≠ [])
    (hframe : s.port.frame = some { code := c.code, args := none, refused := false, reply := none }) :
    s.argumentBytes c =
      s.withPort
        { s.port with
          frame := some { code := c.code, args := some c.args, refused := false, reply := some (c.reply s) } } := by
  simp [State.argumentBytes, hframe, hargs, PortCommand.replyUnless]

theorem State.argumentBytes_taken {s : State} {c : PortCommand} {f : OpenFrame} (hframe : s.port.frame = some f)
    (hargs : f.args = some c.args) : s.argumentBytes c = s := by
  simp [State.argumentBytes, hframe, hargs]

/-- The frame of `c` whose arguments have been taken and whose reply has been formed. -/
def PortCommand.formedFrame (c : PortCommand) (reply : List Byte) : OpenFrame :=
  { code := c.code, args := some c.args, refused := false, reply := some reply }

/-- MNT_SEL rises on such a frame: the effect if the whole reply was clocked, and else CMD_DROPPED. -/
theorem State.frameEnds_formed {s : State} {c : PortCommand} {reply : List Byte} {clocked : Nat}
    (hframe : s.port.frame = some (c.formedFrame reply)) (hargs : c.args.length ≤ clocked) :
    s.frameEnds c clocked =
      let ended := s.withPort { s.port with frame := none, mntDo := shiftedOut c.args.length clocked reply }
      if c.args.length + c.replyLength ≤ clocked then c.effect reply ended else ended.raise .cmdDropped := by
  simp [State.frameEnds, State.argumentBytes_taken hframe rfl, hframe, PortCommand.formedFrame, PortCommand.risesOn,
    PortCommand.complete, hargs]

theorem State.frameEnds_complete {s : State} {c : PortCommand} {reply : List Byte} {clocked : Nat}
    (hframe : s.port.frame = some (c.formedFrame reply)) (hn : c.args.length + c.replyLength ≤ clocked) :
    s.frameEnds c clocked =
      c.effect reply (s.withPort { s.port with frame := none, mntDo := shiftedOut c.args.length clocked reply }) := by
  rw [State.frameEnds_formed hframe (by omega)]
  exact if_pos hn

/-! ### TAKE ATTENTION (R188) -/

/-- Clearing what the byte of PEEK ATTENTION shows of `g` clears exactly the flags that `g` has set (R188). -/
theorem Flags.without_toByte (f g : Flags) :
    f.without g.toByte =
      { configFault := f.configFault && !g.configFault
        rxOverflow := f.rxOverflow && !g.rxOverflow
        reportGap := f.reportGap && !g.reportGap
        rosterFull := f.rosterFull && !g.rosterFull
        siteClash := f.siteClash && !g.siteClash
        cmdDropped := f.cmdDropped && !g.cmdDropped } := by
  obtain ⟨h0, h1, h2, h3, h4, h5, -, -⟩ := g.toByte_bits
  rw [Flags.without, h0, h1, h2, h3, h4, h5]

/-- Settles O48: the frame carries the byte shown to its end, and the effect reads nothing else of the earlier state. -/
theorem takeAttentionClearsShownFlags : Obligations.TakeAttentionClearsShownFlags := by
  intro s n hready
  obtain ⟨hhigh, hframe, hbusy⟩ := s.portReady_iff.mp hready
  have hopened := State.commandByte_ready (c := takeCommand) hframe hbusy rfl
  refine ⟨s.commandByte takeCommand, s.port.flags.toByte, serve_high _ hhigh, by rw [hopened]; rfl,
    s.port.flags.toByte_bits, fun u hu hopen => ?_⟩
  have hformed : u.port.frame = some (takeCommand.formedFrame [s.port.flags.toByte]) := by rw [hopen, hopened]; rfl
  have hrise (clocked : Nat) : exec (.takeAttention (.rise clocked)) u = .next (u.frameEnds takeCommand clocked) :=
    serve_high _ hu
  refine ⟨fun hn => ⟨_, (hrise n).trans (congrArg _ (State.frameEnds_complete hformed (by simpa [takeCommand] using hn))),
    Flags.without_toByte _ _, shiftedOut_reply (a := 0) (by simpa using hn), rfl⟩, ?_⟩
  rw [hrise, State.frameEnds_formed hformed (Nat.le_refl 0)]
  rfl

/-! ### READ COUNTERS (R192) -/

/-- The two bytes of each counter in its place, high byte first. -/
theorem byteAt_flatMap_wordBytes (words : List (BitVec 16)) (k : Nat) (h : k < words.length) :
    byteAt (words.flatMap wordBytes) (2 * k) = words[k].extractLsb' 8 8
      ∧ byteAt (words.flatMap wordBytes) (2 * k + 1) = words[k].extractLsb' 0 8 := by
  induction words generalizing k with
  | nil => cases h
  | cons w words ih =>
    cases k with
    | zero => exact ⟨rfl, rfl⟩
    | succ k => exact ih k (by simpa using h)

theorem byteAt_counterBytes (counters : Vector Count16 16) (k : Fin 16) :
    byteAt (counterBytes counters) (2 * k.val) = counters[k].extractLsb' 8 8
      ∧ byteAt (counterBytes counters) (2 * k.val + 1) = counters[k].extractLsb' 0 8 :=
  byteAt_flatMap_wordBytes counters.toList k.val (by simp)

@[simp] theorem counterBytes_length (counters : Vector Count16 16) : (counterBytes counters).length = 32 := by
  simp [counterBytes, wordBytes, List.length_flatMap]

theorem wordAt_counterBytes (counters : Vector Count16 16) (k : Fin 16) :
    wordAt (counterBytes counters) (2 * k.val) = counters[k] := by
  obtain ⟨hhigh, hlow⟩ := byteAt_counterBytes counters k
  rw [wordAt, hhigh, hlow]
  exact wordAt_append_wordBytes [] counters[k]

/-- Each counter is reduced by the value that the reply showed for it (R192). -/
theorem reduceCounters_at (counters shown : Vector Count16 16) (k : Fin 16) :
    (reduceCounters counters (counterBytes shown))[k] = counters[k] - shown[k] := by
  rw [← wordAt_counterBytes shown k]
  simp [reduceCounters]

/-- What MNT_DO shows of the counters: two bytes of 0x00, the counters, and 0x00 after them. -/
theorem shiftedOut_counterBytes {n : Nat} (h : 33 ≤ n) (counters : Vector Count16 16) :
    shiftedOut 1 n (counterBytes counters) = [0x00, 0x00] ++ counterBytes counters ++ List.replicate (n - 33) 0x00 := by
  rw [shiftedOut_reply (by simpa using (by omega : 1 + 32 ≤ n)), counterBytes_length, Nat.sub_sub]
  rfl

theorem byteAt_shownCounters {n : Nat} (h : 33 ≤ n) (counters : Vector Count16 16) {j : Nat} (hj : j < 32) :
    byteAt (shiftedOut 1 n (counterBytes counters)) (2 + j) = byteAt (counterBytes counters) j := by
  rw [shiftedOut_counterBytes h, byteAt, byteAt, List.append_assoc, List.getD_append_right _ _ _ _ (by simp),
    List.getD_append _ _ _ _ (by simpa using hj)]
  simp

theorem byteAt_besideCounters {n : Nat} (h : 33 ≤ n) (counters : Vector Count16 16) {k : Nat} (hk : k < 2 ∨ 33 < k) :
    byteAt (shiftedOut 1 n (counterBytes counters)) k = 0x00 := by
  rw [shiftedOut_counterBytes h, byteAt]
  rcases hk with hk | hk
  · rw [List.append_assoc, List.getD_append _ _ _ _ (by simpa using hk)]
    interval_cases k <;> rfl
  · rw [List.getD_append_right _ _ _ _ (by simp; omega), List.getD_eq_getElem?_getD, List.getElem?_replicate]
    split <;> rfl

/-- The effect of READ COUNTERS is on the counters alone. -/
theorem countersEffect_eq (clear : Byte) (shown : List Byte) (s : State) :
    (countersCommand clear).effect shown s =
      { s with
        port :=
          { s.port with
            counters := if clear = 0 then s.port.counters else reduceCounters s.port.counters shown } } := by
  simp only [countersCommand]
  split <;> rfl

/-- READ COUNTERS on a READY port: its frame opens and waits for the clear byte. -/
theorem State.commandByte_counters {s : State} (hframe : s.port.frame = none) (hbusy : s.port.busy = false) (clear : Byte) :
    s.commandByte (countersCommand clear) =
      s.withPort
        { s.port with
          frame := some { code := (countersCommand clear).code, args := none, refused := false, reply := none } } :=
  State.commandByte_ready hframe hbusy rfl

/-- READ COUNTERS at the rise: the counters shown on MNT_DO, and each reduced where the clear byte is not 0. -/
theorem exec_readCounters_rise {u : State} {clear : Byte} {shown : Vector Count16 16} {n : Nat}
    (hhigh : u.resetHeld = false)
    (hframe : u.port.frame = some ((countersCommand clear).formedFrame (counterBytes shown))) (hn : 33 ≤ n) :
    exec (.readCounters clear (.rise n)) u = .next
      { u with
        port :=
          { u.port with
            frame := none, mntDo := shiftedOut 1 n (counterBytes shown)
            counters :=
              if clear = 0 then u.port.counters else reduceCounters u.port.counters (counterBytes shown) } } := by
  have hend := State.frameEnds_complete (clocked := n) hframe (by simpa [countersCommand] using hn)
  rw [countersEffect_eq] at hend
  exact (serve_high _ hhigh).trans (congrArg Host.Outcome.next hend)

/-- Settles O50: the frame carries the counters shown from the clear byte to its end. -/
theorem readCountersReducesByTheShown : Obligations.ReadCountersReducesByTheShown := by
  intro s clear n hready hn
  obtain ⟨hhigh, hframe, hbusy⟩ := s.portReady_iff.mp hready
  have hopened := State.commandByte_counters hframe hbusy clear
  have hformed := State.argumentBytes_waiting (s := s.commandByte (countersCommand clear)) (c := countersCommand clear)
    (List.cons_ne_nil clear []) (by rw [hopened]; rfl)
  refine ⟨s.commandByte (countersCommand clear),
    (s.commandByte (countersCommand clear)).argumentBytes (countersCommand clear),
    serve_high _ hhigh, by rw [hopened]; rfl, serve_high _ (by rw [hopened]; exact hhigh),
    by rw [hformed, hopened]; rfl, fun u hu hopen => ?_⟩
  have hshown : u.port.frame = some ((countersCommand clear).formedFrame (counterBytes s.port.counters)) := by
    rw [hopen, hformed, hopened]; rfl
  refine ⟨_, exec_readCounters_rise hu hshown hn, fun k => ?_, fun k => ?_, shiftedOut_length ..,
    fun k hk => byteAt_besideCounters hn _ hk, rfl⟩
  · dsimp only
    split
    · rfl
    · exact reduceCounters_at u.port.counters s.port.counters k
  · obtain ⟨hfirst, hsecond⟩ := byteAt_counterBytes s.port.counters k
    have hnext : 2 + (2 * k.val + 1) = 3 + 2 * k.val := by omega
    exact ⟨(byteAt_shownCounters hn _ (by omega)).trans hfirst,
      hnext ▸ (byteAt_shownCounters hn _ (by omega)).trans hsecond⟩

/-! ### Frames refused and cut short (R184, R185; log entry 18) -/

/-- A whole frame of a refused command: 0x00 throughout, CMD_DROPPED, and nothing else. -/
theorem serve_whole_refused {s : State} {c : PortCommand} (hhigh : s.resetHeld = false) (hframe : s.port.frame = none)
    (hrefused : c.refusedIn s = true) (n : Nat) :
    serve (State.portCommand c (.whole n)) s = .next
      { s with
        port :=
          { s.port with
            mntDo := List.replicate (n + 1) 0x00, flags := { s.port.flags with cmdDropped := true } } } :=
  (serve_high _ hhigh).trans (congrArg Host.Outcome.next (State.whole_refused n hframe hrefused))

/-- On a BUSY port every command but STATUS is refused (R185). -/
theorem serve_whole_busy {s : State} {c : PortCommand} (hhigh : s.resetHeld = false) (hframe : s.port.frame = none)
    (hbusy : s.port.busy = true) (hcode : (c.code == statusCode) = false) (n : Nat) :
    serve (State.portCommand c (.whole n)) s = .next
      { s with
        port :=
          { s.port with
            mntDo := List.replicate (n + 1) 0x00, flags := { s.port.flags with cmdDropped := true } } } :=
  serve_whole_refused hhigh hframe (by simp [PortCommand.refusedIn, hbusy, bne, hcode]) n

/-- A frame cut short of its arguments and its reply: CMD_DROPPED, and nothing else but what was clocked out. -/
theorem serve_whole_short {s : State} {c : PortCommand} {n : Nat} (hready : s.portReady = true)
    (hn : n < c.args.length + c.replyLength) :
    ∃ t, serve (State.portCommand c (.whole n)) s = .next t ∧ t.port.mntDo.length = n + 1
      ∧ t = { s with
              port := { s.port with mntDo := t.port.mntDo, flags := { s.port.flags with cmdDropped := true } } } := by
  obtain ⟨hhigh, hframe, -⟩ := s.portReady_iff.mp hready
  obtain ⟨m, hm, hshort⟩ := State.whole_short hframe hn
  exact ⟨_, (serve_high _ hhigh).trans (congrArg Host.Outcome.next hshort), hm, rfl⟩

/-- The command byte and the rise, with nothing between, are the whole frame (log entry 18). -/
theorem serve_command_rise {s : State} (hhigh : s.resetHeld = false) (hframe : s.port.frame = none) (c : PortCommand)
    (n : Nat) :
    ∃ opened, serve (State.portCommand c .command) s = .next opened
      ∧ serve (State.portCommand c (.rise n)) opened = serve (State.portCommand c (.whole n)) s := by
  have hnone : ¬s.port.frame.isSome = true := by simp [hframe]
  have hstill : (s.commandByte c).resetHeld = false := by rw [State.commandByte, if_neg hnone]; exact hhigh
  have hwhole : s.wholeFrame c n = (s.commandByte c).frameEnds c n := if_neg hnone
  exact ⟨s.commandByte c, serve_high _ hhigh,
    (serve_high _ hstill).trans ((congrArg Host.Outcome.next hwhole.symm).trans (serve_high _ hhigh).symm)⟩

theorem unknownCommand_wellFormed {code : Byte} (h : code ∉ portCodes) (part : FramePart) :
    (Instr.unknownCommand code part).wellFormed = true := by
  simpa [Instr.wellFormed] using h

/-- A command byte outside the table of R184 is the unknown command. -/
theorem frameCommand_unknown {code : Byte} (h : code ∉ portCodes) (rest : List Byte) :
    frameCommand (code :: rest) = some (.unknownCommand code (.whole rest.length)) := by
  have hcodes : code.toNat ∉ portCodes.map BitVec.toNat := fun hmem => by
    obtain ⟨b, hb, heq⟩ := List.mem_map.mp hmem
    exact h (BitVec.eq_of_toNat_eq heq ▸ hb)
  simp only [frameCommand]
  split
  case h_13 => rfl
  all_goals
    next hcode =>
      rw [hcode] at hcodes
      exact absurd (by decide) hcodes

/-- Settles O54: refused frames by why they are refused, divided frames by what the rise finds open, command bytes by the
table, short frames by the length that their command needs. -/
theorem refusedAndShortFramesAreDropped : Obligations.RefusedAndShortFramesAreDropped := by
  refine ⟨fun s code n hhigh hframe hcode => ?_, fun s b b' r n hhigh hframe hbusy => ?_,
    fun s code b b' r n hhigh hframe hcode => ?_,
    ⟨rfl, fun a b c rest => ?_, fun code rest h => frameCommand_unknown h rest⟩, fun s b b' r n hready => ?_⟩
  · exact (serveIf_true _ s (unknownCommand_wellFormed hcode _)).trans (serve_whole_refused hhigh hframe rfl n)
  · have hrefused (c : PortCommand) (hc : (c.code == statusCode) = false) := serve_whole_busy hhigh hframe hbusy hc n
    simp only [List.forall_mem_cons]
    exact ⟨hrefused peekCommand rfl, hrefused takeCommand rfl, hrefused (selectCommand b b') rfl,
      hrefused readCommand rfl, hrefused (countersCommand b) rfl, hrefused (holdCommand b) rfl,
      hrefused (pinCommand r) rfl, hrefused (unpinCommand r) rfl, hrefused (listenCommand b) rfl,
      hrefused flushCommand rfl, hrefused reloadCommand rfl, nofun⟩
  · have hparts (c : PortCommand) := serve_command_rise hhigh hframe c n
    simp only [List.forall_mem_cons]
    refine ⟨hparts statusCommand, hparts peekCommand, hparts takeCommand, hparts (selectCommand b b'), hparts readCommand,
      hparts (countersCommand b), hparts (holdCommand b), hparts (pinCommand r), hparts (unpinCommand r),
      hparts (listenCommand b), hparts flushCommand, hparts reloadCommand, ?_, nofun⟩
    have hserved (part : FramePart) (u : State) : exec (.unknownCommand code part) u
        = serve (State.portCommand (unknownPortCommand code) part) u :=
      serveIf_true _ u (unknownCommand_wellFormed hcode part)
    simpa only [hserved] using hparts (unknownPortCommand code)
  · simp +arith [frameCommand]
  · have hshort (c : PortCommand) (hn : n < c.args.length + c.replyLength) := serve_whole_short hready hn
    simp only [List.forall_mem_cons]
    exact ⟨hshort statusCommand, hshort peekCommand, hshort takeCommand, hshort (selectCommand b b'), hshort readCommand,
      hshort (countersCommand b), hshort (holdCommand b), hshort (pinCommand r), hshort (unpinCommand r),
      hshort (listenCommand b), nofun⟩

end Sys2Proof.Machine

/-! ## The tables read through the holder (R189 to R191; 00_scope.md, 7.4) -/

namespace Sys2Proof.Machine

/-! ### Numbers in bytes, high byte first -/

@[simp] theorem bigEndian_length (n v : Nat) : (bigEndian n v).length = n := by simp [bigEndian]

theorem bigEndian_one (v : Nat) : bigEndian 1 v = [numByte v] := by simp [bigEndian, numByte]

/-- A byte of a longer word is that of its number. -/
theorem extractLsb'_eq_ofNat {w : Nat} (x : BitVec w) (k : Nat) :
    x.extractLsb' k 8 = BitVec.ofNat 8 (x.toNat / 2 ^ k) := by
  rw [BitVec.extractLsb', Nat.shiftRight_eq_div_pow]

theorem bigEndian_word (w : BitVec 16) : bigEndian 2 w.toNat = wordBytes w := by
  simp [bigEndian, wordBytes, extractLsb'_eq_ofNat, List.range_succ]

theorem bigEndian_radio (r : Radio) : bigEndian 3 r.toNat = radioBytes r := by
  simp [bigEndian, radioBytes, extractLsb'_eq_ofNat, List.range_succ]

theorem bigEndian_time (t : Time) : bigEndian 4 t.toNat = timeBytes t := by
  simp [bigEndian, timeBytes, extractLsb'_eq_ofNat, List.range_succ]

/-- Two bytes show a number modulo 65,536. -/
theorem bigEndian_ofNat (v : Nat) : bigEndian 2 v = wordBytes (BitVec.ofNat 16 v) := by
  rw [← bigEndian_word, BitVec.toNat_ofNat]
  refine List.map_congr_left fun k hk => BitVec.eq_of_toNat_eq ?_
  have hk : k = 0 ∨ k = 1 := by simp at hk; omega
  rcases hk with rfl | rfl
  · simp; omega
  · simp

theorem bigEndian_ticksTo (s : State) (deadline : Option Time) :
    bigEndian 2 (s.ticksTo deadline) = remainingBytes s.now deadline := by
  cases deadline with
  | none => simp [bigEndian, State.ticksTo, remainingBytes, List.range_succ]
  | some d => exact bigEndian_ofNat _

/-! ### Bytes that lay out fields -/

/-- Bytes that stand from place `k` to place `m` of a record, and show the fields `fields` there. -/
structure LaysOut (k m : Nat) (bytes : List Byte) (fields : List (Nat × Nat × Nat)) : Prop where
  length : k + bytes.length = m
  shows : ∀ x ∈ fields, k ≤ x.1 ∧ x.1 + x.2.1 ≤ m ∧ (bytes.drop (x.1 - k)).take x.2.1 = bigEndian x.2.1 x.2.2

theorem LaysOut.number (k n v : Nat) : LaysOut k (k + n) (bigEndian n v) [(k, n, v)] where
  length := by simp
  shows := fun x hx => by
    obtain rfl := List.mem_singleton.mp hx
    simp [List.take_of_length_le]

theorem LaysOut.append {k l m : Nat} {a b : List Byte} {F G : List (Nat × Nat × Nat)} (ha : LaysOut k l a F)
    (hb : LaysOut l m b G) : LaysOut k m (a ++ b) (F ++ G) where
  length := by simp [← hb.length, ← ha.length, Nat.add_assoc]
  shows := fun x hx => by
    have hla := ha.length
    have hlb := hb.length
    rcases List.mem_append.mp hx with hx | hx
    · obtain ⟨hfrom, hto, hbytes⟩ := ha.shows x hx
      refine ⟨hfrom, by omega, ?_⟩
      rw [List.drop_append_of_le_length (by omega), List.take_append_of_le_length (by simp; omega), hbytes]
    · obtain ⟨hfrom, hto, hbytes⟩ := hb.shows x hx
      refine ⟨by omega, hto, ?_⟩
      rw [List.drop_append, List.drop_eq_nil_of_le (by omega), List.nil_append, show x.1 - k - a.length = x.1 - l by omega,
        hbytes]

theorem LaysOut.mono {k m : Nat} {bytes : List Byte} {F G : List (Nat × Nat × Nat)} (h : LaysOut k m bytes G)
    (hsub : F ⊆ G) : LaysOut k m bytes F :=
  ⟨h.length, fun x hx => h.shows x (hsub hx)⟩

theorem LaysOut.unread (k : Nat) (bytes : List Byte) : LaysOut k (k + bytes.length) bytes [] := ⟨rfl, nofun⟩

theorem LaysOut.one (k : Nat) {v : Nat} {b : Byte} (h : b = numByte v) : LaysOut k (k + 1) [b] [(k, 1, v)] := by
  rw [h, ← bigEndian_one]
  exact .number k 1 v

theorem LaysOut.byte (k : Nat) (b : Byte) : LaysOut k (k + 1) [b] [(k, 1, b.toNat)] := .one k (by simp [numByte])

theorem LaysOut.flag (k : Nat) (b : Bool) : LaysOut k (k + 1) [flagByte b] [(k, 1, b.toNat)] := .one k (by cases b <;> rfl)

theorem LaysOut.word (k v : Nat) : LaysOut k (k + 2) (wordBytes (BitVec.ofNat 16 v)) [(k, 2, v)] := by
  rw [← bigEndian_ofNat]
  exact .number k 2 v

theorem LaysOut.radio (k : Nat) (r : Radio) : LaysOut k (k + 3) (radioBytes r) [(k, 3, r.toNat)] := by
  rw [← bigEndian_radio]
  exact .number k 3 _

theorem LaysOut.time (k : Nat) (t : Time) : LaysOut k (k + 4) (timeBytes t) [(k, 4, t.toNat)] := by
  rw [← bigEndian_time]
  exact .number k 4 _

theorem LaysOut.ticks (k : Nat) (s : State) (deadline : Option Time) :
    LaysOut k (k + 2) (remainingBytes s.now deadline) [(k, 2, s.ticksTo deadline)] := by
  rw [← bigEndian_ticksTo]
  exact .number k 2 _

/-- The bytes of a field that may be absent show it where it is held; free bytes show nothing (log entry 3). -/
theorem LaysOut.optional {α : Type} {free : Nat → Byte} (k n : Nat) (field : Option α) {bytes : α → List Byte}
    {F : α → List (Nat × Nat × Nat)} (h : ∀ x, LaysOut k (k + n) (bytes x) (F x)) :
    LaysOut k (k + n) (bytesOrFree free k n field bytes) (field.elim [] F) := by
  cases field with
  | none => exact ⟨by simp [bytesOrFree], nofun⟩
  | some x => exact h x

/-! ### Records padded to 40 bytes -/

theorem padRecord_eq {bytes : List Byte} (h : bytes.length ≤ Config.recordSize) :
    padRecord bytes = bytes ++ List.replicate (Config.recordSize - bytes.length) 0x00 := by
  rw [padRecord, List.take_append, List.take_of_length_le h, List.take_replicate, Nat.min_eq_left (Nat.sub_le ..)]

theorem LaysOut.shows_padRecord {m : Nat} {bytes : List Byte} {F : List (Nat × Nat × Nat)} (h : LaysOut 0 m bytes F)
    (hm : m ≤ Config.recordSize) : Shows (padRecord bytes) F := by
  have hlength := h.length
  have hpadded := h.append (.unread m (List.replicate (Config.recordSize - bytes.length) 0x00))
  rw [← padRecord_eq (by omega)] at hpadded
  exact fun x hx => (hpadded.shows x (List.mem_append_left _ hx)).2.2

/-- A padded record is 0 from the end of its own bytes on (R191). -/
theorem zeroFrom_padRecord {bytes : List Byte} {k : Nat} (h : bytes.length ≤ k) : ZeroFrom k (padRecord bytes) := by
  intro j hj
  rw [byteAt, padRecord, List.getD_eq_getElem?_getD, List.getElem?_take]
  split
  · rw [List.getElem?_append_right (by omega), List.getElem?_replicate]
    split <;> rfl
  · rfl

/-- A record of tables 1 to 7 shows what its position holds, from byte 2 on (R191). -/
theorem tableRecord_recorded {α : Type} {bytes : α → List Byte} {fields : α → List (Nat × Nat × Nat)} {k : Nat}
    (h : ∀ x, LaysOut 2 k (0x01 :: bytes x) (fields x)) (hk : k ≤ Config.recordSize) (t : Fin 8) (i : Nat)
    (held : Option α) : Recorded (tableRecord t i (held.map bytes)) held fields k := by
  cases held with
  | none => exact zeroFrom_padRecord (bytes := [numByte t.val, numByte i]) le_rfl
  | some x =>
    have hwhole := (LaysOut.unread 0 [numByte t.val, numByte i]).append (h x)
    exact ⟨hwhole.shows_padRecord hk, zeroFrom_padRecord (by simpa using hwhole.length.le)⟩

/-! ### The layouts of tables 1 to 7 (R191) -/

theorem strayRecord_laysOut (s : State) (e : StrayEntry) :
    LaysOut 2 16 (0x01 :: strayRecord s.now e) (s.strayFields e) :=
  (LaysOut.one 2 rfl).append
    (((((LaysOut.radio 3 e.radio).append (.word 6 e.f)).append (.time 8 e.lastHeard)).append
      ((LaysOut.one 12 rfl).append (.flag 13 e.reported))).append (.ticks 14 s _))

theorem hearingRecord_laysOut (s : State) (e : HearingEntry) :
    LaysOut 2 14 (0x01 :: hearingRecord s.now e) (s.hearingFields e) :=
  (LaysOut.one 2 rfl).append
    (((((LaysOut.one 3 rfl).append (.radio 4 e.radio)).append (.one 7 rfl)).append (.time 8 e.received)).append
      (.ticks 12 s _))

theorem historyRecord_laysOut (x : History) : LaysOut 2 12 (0x01 :: historyRecord x) (historyFields x) :=
  (LaysOut.one 2 rfl).append
    ((((LaysOut.radio 3 x.radio).append (.byte 6 x.toSite)).append (.time 7 x.stamp)).append
      (.one 11 (by cases x.outcome <;> rfl)))

theorem orderRecord_laysOut (o : SteerOrder) : LaysOut 2 10 (0x01 :: orderRecord o) (orderFields o) :=
  (LaysOut.one 2 rfl).append
    (((LaysOut.one 3 (by cases o.kind <;> rfl)).append (.radio 4 o.radio)).append
      ((LaysOut.byte 7 o.channel).append ((LaysOut.byte 8 o.site).append (.one 9 rfl))))

theorem pinRecord_laysOut (r : Radio) : LaysOut 2 6 (0x01 :: radioBytes r) [(2, 1, 1), (3, 3, r.toNat)] :=
  (LaysOut.one 2 rfl).append (.radio 3 r)

theorem departureRecord_laysOut (s : State) (d : Departure) :
    LaysOut 2 18 (0x01 :: s.departureRecord d) (s.departureFields d) := by
  have hmarks (a b : Bool) : ((if a then 1 else 0) ||| (if b then 2 else 0) : Byte) = numByte (a.toNat + 2 * b.toNat) := by
    cases a <;> cases b <;> rfl
  exact (LaysOut.one 2 rfl).append
    ((((LaysOut.radio 3 d.radio).append
      ((LaysOut.one 6 rfl).append ((LaysOut.one 7 rfl).append ((LaysOut.byte 8 _).append ((LaysOut.byte 9 d.sequence).append
        ((LaysOut.one 10 (by cases d.phase <;> rfl)).append (.one 11 rfl))))))).append (.ticks 12 s _)).append
      ((LaysOut.one 14 rfl).append ((LaysOut.one 15 rfl).append ((LaysOut.one 16 (hmarks _ _)).append (.flag 17 _)))))

/-- A bias trim as one byte is its number modulo 256 (R191). -/
theorem ofInt_eq_numByte (i : Int) : BitVec.ofInt 8 i = numByte (i % 256).toNat := by
  refine BitVec.eq_of_toNat_eq ?_
  rw [numByte_toNat (by omega), BitVec.toNat_ofInt]
  rfl

theorem neighbourRecord_laysOut (s : State) (free : Nat → Byte) (n : NeighbourRecord) :
    LaysOut 2 15 (0x01 :: neighbourRecordBytes s.now free n) (s.neighbourFields n) := by
  have hlaid := (LaysOut.one (b := 0x01) (v := 1) 2 rfl).append
    ((((LaysOut.byte 3 n.site).append ((LaysOut.byte 4 n.channel).append ((LaysOut.one 5 (ofInt_eq_numByte n.bias)).append
      ((LaysOut.flag 6 n.accept).append ((LaysOut.byte 7 n.state.code).append (.flag 8 n.lastFrame.isSome)))))).append
      (.optional (free := free) 9 4 n.lastFrame (LaysOut.time 9))).append (.ticks 13 s n.silence))
  refine hlaid.mono ?_
  rw [State.neighbourFields, List.append_subset]
  constructor
  · cases n.state <;> simp [NeighbourState.code]
  · cases n.lastFrame <;> simp

/-- Byte 6 of a roster record, its bits as a number (00_scope.md, 7.4). -/
theorem presenceFlags_eq (pinned : Bool) (e : RosterEntry) :
    presenceFlags pinned e =
      numByte (1 + 2 * e.emergency.isSome.toNat + 4 * e.callActive.isSome.toNat + 8 * e.away.isSome.toNat
        + 16 * e.dwell.isSome.toNat + 32 * e.askReady.toNat + 64 * e.exclusion.isSome.toNat + 128 * pinned.toNat) := by
  rw [presenceFlags]
  generalize e.emergency.isSome = b1, e.callActive.isSome = b2, e.away.isSome = b3, e.dwell.isSome = b4, e.askReady = b5,
    e.exclusion.isSome = b6
  revert pinned b1 b2 b3 b4 b5 b6
  decide

theorem countByte_toNat (c : Option (BitVec 4)) : (countByte c).toNat = c.elim 255 BitVec.toNat := by
  cases c with
  | none => rfl
  | some c => exact BitVec.toNat_setWidth_of_le (by decide)

/-- A roster record with the 0 of its last byte (00_scope.md, 7.4). -/
theorem rosterRecord_laysOut (s : State) (free : Nat → Byte) (i : Nat) (e : RosterEntry) :
    LaysOut 0 40 (rosterRecord s.now free (s.roster.pins.contains e.radio) i e ++ [0x00]) (s.rosterFields e) := by
  have haway (a : Sighting) : LaysOut 19 24 (numByte a.neighbour.val :: timeBytes a.stamp)
      [(19, 1, a.neighbour.val), (20, 4, a.stamp.toNat)] := (LaysOut.one 19 rfl).append (.time 20 a.stamp)
  have hreserved (x : Reservation) : LaysOut 35 37 [x.fromSite, x.sequence]
      [(35, 1, x.fromSite.toNat), (36, 1, x.sequence.toNat)] := (LaysOut.byte 35 _).append (.byte 36 _)
  have hfront := (((((((LaysOut.unread 0 [0x00, numByte i]).append (.radio 2 e.radio)).append
    ((LaysOut.byte 5 e.state.code).append ((LaysOut.one 6 (presenceFlags_eq (s.roster.pins.contains e.radio) e)).append
      (.byte 7 (countByte e.count))))).append (.word 8 e.f)).append (.time 10 e.lastHeard)).append
    (.optional (free := free) 14 4 e.arrival fun a => .time 14 a.stamp)).append
    (.byte 18 ((e.arrival.map Arrival.origin).getD 0))).append (.optional (free := free) 19 5 e.away haway)
  have hticks := (((hfront.append (.ticks 24 s e.lostDeadline)).append (.ticks 26 s e.emergency)).append
    (.ticks 28 s e.callActive)).append (.ticks 30 s e.dwell)
  have hlaid := ((((hticks.append
    (.optional (free := free) 32 1 e.exclusion fun x => .one 32 (v := x.neighbour.val) rfl)).append
    (.ticks 33 s (e.exclusion.map Exclusion.deadline))).append
    (.optional (free := free) 35 2 e.reservation hreserved)).append
    (.ticks 37 s (e.reservation.map Reservation.deadline))).append (.one 39 (v := 0) rfl)
  refine hlaid.mono ?_
  simp only [State.rosterFields, List.append_subset, List.cons_subset]
  refine ⟨⟨⟨⟨?_, ?_⟩, ?_⟩, ?_⟩, ?_⟩
  · refine ⟨by simp, ?_, by simp, ?_, by simp, by simp, ?_, by simp⟩
    · cases e.state <;> simp [EntryState.code]
    · cases e.count <;> simp [countByte_toNat]
    · cases e.arrival <;> simp
  · cases e.arrival <;> simp
  · cases e.away <;> simp
  · cases e.exclusion <;> simp
  · cases e.reservation <;> simp

/-! ### The eight tables, position by position (R189, R191) -/

@[simp] theorem slotAtNat_val {α : Type} {n : Nat} (v : Vector (Option α) n) (k : Fin n) : slotAtNat v k.val = v[k] := by
  simp [slotAtNat]

theorem padRecord_append_zero {bytes : List Byte} (h : bytes.length < Config.recordSize) :
    padRecord (bytes ++ [0x00]) = padRecord bytes := by
  rw [padRecord_eq (by simpa using h), padRecord_eq h.le, List.append_assoc, List.length_append, List.length_singleton,
    show Config.recordSize - bytes.length = Config.recordSize - (bytes.length + 1) + 1 by omega, List.replicate_succ]
  rfl

theorem State.rosterEntry_recorded (s : State) (k : Fin 64) :
    Recorded (s.tableEntry 0 k.val) s.roster.entries[k] s.rosterFields 39 := by
  simp only [State.tableEntry, slotAtNat_val]
  cases s.roster.entries[k] with
  | none => exact zeroFrom_padRecord (bytes := [0x00, numByte k.val]) le_rfl
  | some e =>
    have hlaid := rosterRecord_laysOut s (fun j => Config.freeByte (s.freeIndex + j)) k.val e
    have hlength := hlaid.length
    rw [List.length_append, List.length_singleton] at hlength
    have hshows := hlaid.shows_padRecord le_rfl
    rw [padRecord_append_zero (by simp only [Config.recordSize]; omega)] at hshows
    exact ⟨hshows, zeroFrom_padRecord (by omega)⟩

theorem State.strayEntry_recorded (s : State) (k : Fin 32) :
    Recorded (s.tableEntry 1 k.val) s.strays.entries[k] s.strayFields 16 := by
  rw [← slotAtNat_val s.strays.entries k]
  exact tableRecord_recorded (strayRecord_laysOut s) (by decide) 1 k.val _

theorem State.hearingEntry_recorded (s : State) (k : Fin 128) :
    Recorded (s.tableEntry 2 k.val) s.hearing.table[k] s.hearingFields 14 := by
  rw [← slotAtNat_val s.hearing.table k]
  exact tableRecord_recorded (hearingRecord_laysOut s) (by decide) 2 k.val _

theorem State.neighbourEntry_recorded (s : State) (k : Fin 8) :
    Recorded (s.tableEntry 3 k.val) (some s.hearing.neighbours[k]) s.neighbourFields 15 := by
  have hheld : s.hearing.neighbours[k.val]? = some s.hearing.neighbours[k] := by simp
  rw [← hheld]
  exact tableRecord_recorded (neighbourRecord_laysOut s _) (by decide) 3 k.val _

theorem State.departureEntry_recorded (s : State) (k : Fin 4) :
    Recorded (s.tableEntry 4 k.val) s.nego.departures[k] s.departureFields 18 := by
  rw [← slotAtNat_val s.nego.departures k]
  exact tableRecord_recorded (departureRecord_laysOut s) (by decide) 4 k.val _

theorem State.historyEntry_recorded (s : State) (i : Nat) :
    Recorded (s.tableEntry 5 i) (if i = 0 then s.nego.last else s.nego.previous) historyFields 12 :=
  tableRecord_recorded historyRecord_laysOut (by decide) 5 i _

theorem State.orderEntry_recorded (s : State) (i : Nat) :
    Recorded (s.tableEntry 6 i) s.steer.orders[i]? orderFields 10 :=
  tableRecord_recorded orderRecord_laysOut (by decide) 6 i _

theorem State.pinEntry_recorded (s : State) (i : Nat) :
    Recorded (s.tableEntry 7 i) s.roster.pins[i]? (fun r => [(2, 1, 1), (3, 3, r.toNat)]) 6 :=
  tableRecord_recorded pinRecord_laysOut (by decide) 7 i _

/-- Every record has its table number and its position in front (R191). -/
theorem State.tableEntry_front (t : Fin 8) (i : Nat) (s : State) :
    (s.tableEntry t i).take 2 = [numByte t.val, numByte i] := by
  have hrecord (u : Fin 8) (held : Option (List Byte)) : (tableRecord u i held).take 2 = [numByte u.val, numByte i] := by
    cases held <;> rfl
  unfold State.tableEntry
  dsimp only
  split
  · split <;> rfl
  all_goals exact hrecord _ _

theorem State.fetched_front (x : Fetch) (s : State) :
    (s.fetched x).take 2 = [numByte x.table.val, x.position.elim 0xFF numByte] := by
  unfold State.fetched
  cases x.position with
  | none => rfl
  | some i => exact s.tableEntry_front x.table i

theorem State.fetched_position {x : Fetch} {i : Nat} (h : x.position = some i) (s : State) :
    s.fetched x = s.tableEntry x.table i := by
  rw [State.fetched, h]

theorem State.fetched_end {x : Fetch} (h : x.position = none) (s : State) : ZeroFrom 2 (s.fetched x) := by
  rw [State.fetched, h]
  exact zeroFrom_padRecord (bytes := [numByte x.table.val, 0xFF]) le_rfl

/-! ### SELECT TABLE, READ ENTRY and FETCH_COMPLETE (R189, R190) -/

theorem tableSize_eq (t : Fin 8) : tableSize t = [64, 32, 128, 8, 4, 2, 8, 8].getD t.val 0 := by
  revert t
  decide

theorem exec_selectTable {s : State} (hready : s.portReady = true) {n : Nat} (hn : 2 ≤ n) (table index : Byte) :
    exec (.selectTable table index (.whole n)) s = .next
      ((selectCommand table index).effect [] (s.withPort { s.port with mntDo := List.replicate (n + 1) 0x00 })) :=
  State.whole_silent hready rfl rfl rfl hn

/-- READ ENTRY on a READY port: the holder shown, and a fetch started (R190). -/
theorem exec_readEntry {s : State} (hready : s.portReady = true) {n : Nat} (hn : 40 ≤ n)
    (hholder : s.port.holder.length = 40) :
    exec (.readEntry (.whole n)) s = .next
      (s.withPort
        { s.port with mntDo := [0x00] ++ s.port.holder ++ List.replicate (n - 40) 0x00 }).startFetch := by
  obtain ⟨hhigh, hframe, hbusy⟩ := s.portReady_iff.mp hready
  have hserved := State.whole_ready (c := readCommand) hframe hbusy rfl (show 0 + 40 ≤ n by omega) fun _ => rfl
  have hshown : shiftedOut readCommand.args.length n (readCommand.reply s)
      = [0x00] ++ s.port.holder ++ List.replicate (n - 40) 0x00 := by
    have hfits : 0 + s.port.holder.length ≤ n := by omega
    rw [← hholder]
    exact shiftedOut_reply hfits
  rw [hshown] at hserved
  exact (serve_high _ hhigh).trans (congrArg Host.Outcome.next hserved)

theorem exec_fetchComplete {s : State} {x : Fetch} (hhigh : s.resetHeld = false) (hfetch : s.port.fetch = some x) :
    exec .fetchComplete s = .next
      { s with
        port := { s.port with holder := s.fetched x, fetch := none, busy := false }
        freeIndex := s.freeIndex + Config.recordSize } := by
  show execFetchComplete s = _
  rw [execFetchComplete, serve_high _ hhigh, hfetch]
  rfl

/-- Settles O49: the two commands by the cursor, and the record fetched table by table. -/
theorem tablesAreReadThroughTheHolder : Obligations.TablesAreReadThroughTheHolder := by
  refine ⟨fun s table index n hready hn => ?_, fun s n hready hholder hn => ?_, fun s x hhigh hfetch => ?_⟩
  · rw [exec_selectTable hready hn]
    simp only [selectCommand]
    split <;> rfl
  · rw [exec_readEntry hready hn hholder, State.startFetch]
    simp only [tableSize_eq, decide_eq_true_eq]
    rfl
  · refine ⟨_, exec_fetchComplete hhigh hfetch, s.fetched_length x, ?_, fun hend => State.fetched_end hend s,
      fun i hi => ?_, rfl⟩
    · refine (s.fetched_front x).trans ?_
      cases x.position <;> rfl
    · dsimp only
      rw [State.fetched_position hi]
      exact ⟨fun k htable hk => hk ▸ htable ▸ s.rosterEntry_recorded k,
        fun k htable hk => hk ▸ htable ▸ s.strayEntry_recorded k,
        fun k htable hk => hk ▸ htable ▸ s.hearingEntry_recorded k,
        fun k htable hk => hk ▸ htable ▸ s.neighbourEntry_recorded k,
        fun k htable hk => hk ▸ htable ▸ s.departureEntry_recorded k,
        fun htable hk => hk ▸ htable ▸ s.historyEntry_recorded 0,
        fun htable hk => hk ▸ htable ▸ s.historyEntry_recorded 1,
        fun htable => htable ▸ s.orderEntry_recorded i, fun htable => htable ▸ s.pinEntry_recorded i⟩

end Sys2Proof.Machine

/-! ## A step: the front of the queue executed, what completes and what is refused (log entries 2, 10 and 15) -/

namespace Sys2Proof.Machine

/-! ### The front of the queue -/

theorem step_cons {c : Instr} {rest : List Instr} {s : State} (h : s.pending = c :: rest) :
    step s = exec c (s.withPending rest) := by
  rw [step, h]

theorem step_empty {s : State} (h : s.pending = []) : step s = .next s := by
  rw [step, h]

/-- Settles O1: by the two forms of the queue. -/
theorem stepExecutesFrontOfQueue : Obligations.StepExecutesFrontOfQueue :=
  ⟨fun _ _ _ h => step_cons h, fun _ h => step_empty h⟩

/-! ### Completion with the queue's rest kept: the shapes of a meaning -/

/-- The outcome is a next state with the queue of `s`. -/
def Completes (s : State) (o : Host.Outcome State Fault Refusal) : Prop :=
  ∃ t, o = .next t ∧ t.pending = s.pending

theorem Completes.next {s t : State} (h : t.pending = s.pending) : Completes s (.next t) :=
  ⟨t, rfl, h⟩

theorem Completes.serve {f : State → State} {s : State} (hf : (f s).pending = s.pending) :
    Completes s (serve f s) := by
  obtain ⟨t, ht, rfl | rfl⟩ := serve_next f s
  · exact ⟨t, ht, rfl⟩
  · exact ⟨f s, ht, hf⟩

theorem Completes.serveIf {b : Bool} {f : State → State} {s : State} (hb : b = true)
    (hf : (f s).pending = s.pending) : Completes s (serveIf b f s) := by
  rw [serveIf_true f s hb]
  exact .serve hf

theorem pending_onlyIf {p : Prop} [Decidable p] {s t : State} (h : t.pending = s.pending) :
    (if p then t else s).pending = s.pending := by
  split
  · exact h
  · rfl

/-- A change and a dropped command keep the queue alike. -/
theorem pending_orDropped {p : Prop} [Decidable p] {s t : State} (h : t.pending = s.pending) :
    (if p then t else s.dropCommand).pending = s.pending := by
  split
  · exact h
  · exact s.dropCommand_pending

theorem State.whenDue_pending {i : Fin 64} {due : RosterEntry → Bool} {f : RosterEntry → State → State} {s : State}
    (hf : ∀ e, (f e s).pending = s.pending) : (s.whenDue i due f).pending = s.pending := by
  unfold State.whenDue
  split
  · exact pending_onlyIf (hf _)
  · rfl

theorem State.portCommand_pending {c : PortCommand} (part : FramePart)
    (heff : ∀ (shown : List Byte) (s : State), (c.effect shown s).pending = s.pending) (s : State) :
    (s.portCommand c part).pending = s.pending :=
  State.portCommand_keeps State.pending c part (fun _ _ _ _ => rfl) heff s

theorem Completes.portCommand {c : PortCommand} {part : FramePart} {s : State}
    (heff : ∀ (shown : List Byte) (s : State), (c.effect shown s).pending = s.pending) :
    Completes s (Machine.serve (State.portCommand c part) s) :=
  .serve (State.portCommand_pending part heff s)

/-! ### The commands that choose between several changes -/

theorem execOldMark_completes (stamp : StampName) (s : State) : Completes s (execOldMark stamp s) :=
  .serve (by cases stamp <;> rfl)

theorem execReadComplete_completes {pulses : Nat} {image : List Byte}
    (h : (Instr.readComplete pulses image).wellFormed = true) (s : State) :
    Completes s (execReadComplete pulses image s) :=
  .serveIf h (pending_onlyIf (by dsimp only; split <;> rfl))

theorem execReportFrame_completes {frame : List Byte} (h : (Instr.reportFrame frame).wellFormed = true) (s : State) :
    Completes s (execReportFrame frame s) := by
  refine .serveIf h (pending_onlyIf ?_)
  dsimp only
  split
  · exact State.takeFrame_pending ..
  · rfl

theorem execAnswerDeadline_completes (p : Fin 4) (s : State) : Completes s (execAnswerDeadline p s) := by
  refine .serve ?_
  split
  · refine pending_onlyIf ?_
    split
    · exact State.resendAsk_pending ..
    · exact State.askTimesOut_pending ..
  · rfl

theorem execLeaveDeadline_completes (p : Fin 4) (s : State) : Completes s (execLeaveDeadline p s) := by
  refine .serve ?_
  split
  · exact pending_onlyIf (State.leaveEnds_pending ..)
  · rfl

theorem execHearingExpiry_completes (j : Fin 128) (s : State) : Completes s (execHearingExpiry j s) := by
  refine .serve ?_
  split
  · exact pending_onlyIf (State.evalRadios_pending ..)
  · rfl

theorem execIdleGapDeadline_completes (s : State) : Completes s (execIdleGapDeadline s) := by
  refine .serve ?_
  split
  · exact pending_onlyIf rfl
  · rfl

theorem execSpacingEnd_completes (s : State) : Completes s (execSpacingEnd s) := by
  refine .serve ?_
  split
  · exact pending_onlyIf rfl
  · rfl

theorem execCarrierOnset_completes (s : State) : Completes s (execCarrierOnset s) := by
  refine .next ?_
  split
  · rfl
  split <;> rfl

theorem execCarrierFall_completes (bytes : List Byte) (s : State) : Completes s (execCarrierFall bytes s) := by
  refine .next ?_
  split
  · rfl
  split
  · rfl
  dsimp only
  split
  · exact State.judgeCollected_pending ..
  · rfl

theorem execDispatch_completes (s : State) : Completes s (execDispatch s) := by
  refine .serve ?_
  split
  · exact pending_onlyIf (State.dispatchFrame_pending ..)
  · rfl

theorem execFetchComplete_completes (s : State) : Completes s (execFetchComplete s) :=
  .serve (by split <;> rfl)

/-! ### The effects of the maintenance commands -/

theorem selectEffect_pending (table index : Byte) (shown : List Byte) (s : State) :
    ((selectCommand table index).effect shown s).pending = s.pending := by
  simp only [selectCommand]
  split <;> rfl

theorem countersEffect_pending (clear : Byte) (shown : List Byte) (s : State) :
    ((countersCommand clear).effect shown s).pending = s.pending := by
  simp only [countersCommand]
  split <;> rfl

theorem holdEffect_pending (mode : Byte) (shown : List Byte) (s : State) :
    ((holdCommand mode).effect shown s).pending = s.pending := by
  simp only [holdCommand]
  split
  · exact State.setHoldMode_pending _ s
  · rfl

theorem listenEffect_pending (setting : Byte) (shown : List Byte) (s : State) :
    ((listenCommand setting).effect shown s).pending = s.pending := by
  simp only [listenCommand]
  split
  · exact pending_orDropped (State.setListenOnly_pending _ s)
  · rfl

/-! ### Every command -/

/-- A command that a port can deliver completes and keeps the queue, in every state. -/
theorem exec_completes {c : Instr} (h : c.wellFormed = true) (s : State) : Completes s (exec c s) := by
  cases c with
  | hardReset => exact .next rfl
  | resetRelease => exact .next (pending_onlyIf rfl)
  | readComplete pulses image => exact execReadComplete_completes h s
  | missingAcknowledge pulses point => exact .serveIf h (pending_onlyIf rfl)
  | stuckDataLine => exact .serve (pending_onlyIf rfl)
  | loadDeadline progress clockHeld => exact .serveIf h (pending_onlyIf rfl)
  | tick => exact .serve (f := fun s => (s.withNow (s.now + 1)).withLink s.link.countDown) rfl
  | oldMark stamp => exact execOldMark_completes stamp s
  | reportFrameStart => exact .serve (f := fun s => s.withIntake { s.intake with collecting := true }) rfl
  | reportFrame frame => exact execReportFrame_completes h s
  | lostDeadline i => exact .serve (State.whenDue_pending fun _ => by simp)
  | callActiveDeadline i => exact .serve (State.whenDue_pending fun _ => by simp)
  | emergencyClear i => exact .serve (State.whenDue_pending fun _ => by simp)
  | guardPeriodEnd i => exact .serve (State.whenDue_pending fun _ => by simp)
  | reservationDeadline i => exact .serve (State.whenDue_pending fun _ => by simp)
  | dwellExpiry i => exact .serve (State.whenDue_pending fun _ => by simp)
  | exclusionDeadline i => exact .serve (State.whenDue_pending fun _ => by simp)
  | answerDeadline p => exact execAnswerDeadline_completes p s
  | leaveDeadline p => exact execLeaveDeadline_completes p s
  | strayAgeDeadline j => exact .serve (pending_onlyIf rfl)
  | hearingPeriodExpiry => exact .serve (pending_onlyIf (by simp))
  | silenceDeadline n => exact .serve (pending_onlyIf (by simp))
  | hearingExpiry j => exact execHearingExpiry_completes j s
  | idleGapDeadline => exact execIdleGapDeadline_completes s
  | backoffEnd => exact .serve (pending_onlyIf rfl)
  | spacingEnd => exact execSpacingEnd_completes s
  | windowEnd => exact .serve (pending_onlyIf rfl)
  | carrierOnset => exact execCarrierOnset_completes s
  | carrierFall bytes => exact execCarrierFall_completes bytes s
  | dispatch => exact execDispatch_completes s
  | sentReport => exact .serve (pending_onlyIf rfl)
  | takenStrobe => exact .serve (f := fun s => s.withSteer s.steer.strobe) rfl
  | status part => exact .portCommand fun _ _ => rfl
  | peekAttention part => exact .portCommand fun _ _ => rfl
  | takeAttention part => exact .portCommand fun _ _ => rfl
  | selectTable table index part => exact .portCommand (selectEffect_pending table index)
  | readEntry part => exact .portCommand fun _ _ => rfl
  | fetchComplete => exact execFetchComplete_completes s
  | readCounters clear part => exact .portCommand (countersEffect_pending clear)
  | setHold mode part => exact .portCommand (holdEffect_pending mode)
  | pin radio part => exact .portCommand fun _ u => State.pinRadio_pending radio u
  | unpin radio part => exact .portCommand fun _ u => State.unpinRadio_pending radio u
  | listenOnly setting part => exact .portCommand (listenEffect_pending setting)
  | flush part => exact .portCommand fun _ _ => pending_orDropped rfl
  | flushComplete => exact .serve (pending_onlyIf rfl)
  | reload part => exact .portCommand fun _ _ => pending_orDropped rfl
  | unknownCommand code part => exact .serveIf h (State.portCommand_pending part (fun _ _ => rfl) s)

/-- A command that no port can deliver is refused: only the five whose operands are checked can be one (log entry 15). -/
theorem exec_illFormed {c : Instr} (h : c.wellFormed = false) (s : State) : exec c s = .refused .illFormed := by
  cases c with
  | readComplete pulses image => exact serveIf_false _ s h
  | missingAcknowledge pulses point => exact serveIf_false _ s h
  | loadDeadline progress clockHeld => exact serveIf_false _ s h
  | reportFrame frame => exact serveIf_false _ s h
  | unknownCommand code part => exact serveIf_false _ s h
  | _ => cases h

/-- Settles O2: the two outcomes, by whether the command is well-formed. -/
theorem wellFormedCommandsComplete : Obligations.WellFormedCommandsComplete :=
  fun _ s => ⟨fun h => exec_completes h s, fun h => exec_illFormed h s⟩

end Sys2Proof.Machine
